-- ==== Sys2Proof/Word.lean ====
section
/-! DEFINITION. Word.lean: the words of the block (`00_scope.md` R13, R16). Every register holds an unsigned integer of a
fixed width; bit 0 is the least significant. -/

namespace Sys2Proof

/-- A byte, 8 bits (`20_memory.md` R81): a location of the register space or of the Speed Table. -/
abbrev Byte := BitVec 8

/-- An operation word, 16 bits (`30_encoding.md` R118). -/
abbrev OpWord := BitVec 16

/-- A count of timebase ticks, `TB_WIDTH` = 16 bits (`00_scope.md` R11, `42_timebase.md` R192). -/
abbrev Ticks := BitVec 16

/-- A frame word, `FRAME_BITS` = 32 bits (`00_scope.md` R11, `30_encoding.md` R114). -/
abbrev FrameWord := BitVec 32

/-- An address of the host register space, `HOST_AW` = 4 bits (`20_memory.md` R80, `30_encoding.md` R121). -/
abbrev RegAddr := BitVec 4

/-- A logical speed 0 to 9 (`10_state.md` R39). -/
abbrev Level := Fin 10

end Sys2Proof
end

