-- ==== Sys2Proof/Config.lean ====
section
/-! DEFINITION. Config.lean: the implementation parameters of `00_scope.md` R11. A model takes each as a field of its
configuration; every operation of the model is a function of a `Config`, and `Config.machine` is the one that `step` runs. -/

namespace Sys2Proof

/-- The direction of the accumulator shift, `ACC_DIR` (`43_ir_decoder.md` R213, conflict C2). -/
inductive AccDir where
  | right
  | left
deriving DecidableEq, Repr

/-- A transition of the `zc_in` pin, for `ZC_POL` (`00_scope.md` R8, R11). -/
inductive Transition where
  | rising
  | falling
deriving DecidableEq, Repr

/-- The parameters of `00_scope.md` R11; the defaults are the values that rule takes.
`tTb`, `tDt` and `pulseW` are durations in nanoseconds; no rule depends on them (`40_firing_engine.md` R163, R192, R381,
D33, D35; the lemma `perform_ignores_timing`). What the model does at values other than R11's of the six parameters that
count levels, bits and widths is log entry 2. -/
structure Config where
  /-- `LUT[0..9]`, the Speed Table. -/
  lut : Vector Byte 10
  /-- `FULL_IDX`, the index of the full-speed entry. -/
  fullIdx : Level := 9
  /-- `N_LEVELS`, at most the ten that `LEVEL` and the table hold. -/
  nLevels : Nat := 10
  /-- `KICK_HALFCYCLES`. -/
  kickHalfcycles : Byte := 200#8
  /-- `MARK_MIN`. -/
  markMin : Nat := 787
  /-- `SPACE_MIN`. -/
  spaceMin : Nat := 197
  /-- `SPACE_RPT`. -/
  spaceRpt : Nat := 2 * spaceMin
  /-- `BIT_MIN`. -/
  bitMin : Nat := 56
  /-- `BIT_MAX`. -/
  bitMax : Nat := 84
  /-- `BIT_DISC`. -/
  bitDisc : Nat := 3 * bitMin
  /-- `LOW_MIN`. -/
  lowMin : Nat := bitMin
  /-- `LOW_MAX`. -/
  lowMax : Nat := 3 * bitMax
  /-- `FRAME_BITS`, at most the 32 that `ACC` and `FRAME` hold. -/
  frameBits : Nat := 32
  /-- `ACC_DIR`. -/
  accDir : AccDir := .right
  /-- `IR_IDLE_TICKS`. -/
  irIdleTicks : BitVec 2 := 2#2
  /-- `TB_WIDTH`, at most the 16 bits that `TB_CNT` and `IR_LAST` hold. -/
  tbWidth : Nat := 16
  /-- `ZC_POL`. -/
  zcPol : Transition := .rising
  /-- `IR_ACTIVE_LOW`. -/
  irActiveLow : Bool := true
  /-- `GATE_ACTIVE_LOW`. -/
  gateActiveLow : Bool := true
  /-- `HOST_AW`, the address bits of the host port: the register space has 2^4 locations (`20_memory.md` R80). -/
  hostAw : Nat := 4
  /-- `HOST_DW`, the data bits of the host port: every location is a byte (R81). -/
  hostDw : Nat := 8
  /-- `T_TB`, nominal. -/
  tTb : Nat := 8000
  /-- `T_DT`, OPEN (D35). -/
  tDt : Nat
  /-- `PULSE_W`, OPEN (D33). -/
  pulseW : Nat
deriving DecidableEq, Repr

/-- The highest level, `N_LEVELS - 1`. -/
def Config.topLevel (c : Config) : Level := ⟨min 9 (c.nLevels - 1), by omega⟩

/-- A count of timebase ticks modulo `2^TB_WIDTH`; the counter itself holds 16 bits (`00_scope.md` R16). -/
def Config.tick (c : Config) (t : Ticks) : Ticks := BitVec.ofNat 16 (t.toNat % 2 ^ c.tbWidth)

/-- FREE VALUE (log entry 1): the spec gives no value of the Speed Table (R7, R11, R171). -/
opaque Config.rawAngle : Nat → Byte

/-- FREE VALUE (log entry 3): `T_DT` is OPEN (R11, D35). -/
opaque Config.delayTick : Nat

/-- FREE VALUE (log entry 3): `PULSE_W` is OPEN (R11, D33). -/
opaque Config.pulseWidth : Nat

/-- Entry `i` of the machine's Speed Table: the least of the free values up to `i`. This keeps the one constraint the
spec sets, `LUT[s] >= LUT[s+1]` (`41_speed_mapper.md` R171(b)), and nothing else: every admissible table is this
function of itself. -/
def Config.tableAngle : Nat → Byte
  | 0 => Config.rawAngle 0
  | i + 1 =>
    if Config.rawAngle (i + 1) ≤ Config.tableAngle i then Config.rawAngle (i + 1) else Config.tableAngle i

/-- The machine's Speed Table. -/
def Config.machineTable : Vector Byte 10 := Vector.ofFn fun i => Config.tableAngle i.val

/-- The configuration of the machine that `step` runs: the values of R11, with the open ones free. -/
def Config.machine : Config :=
  { lut := Config.machineTable, tDt := Config.delayTick, pulseW := Config.pulseWidth }

/-- `LUT_EX` of `00_scope.md` R12, the example table of the test vectors; no rule depends on it. -/
def Config.exampleTable : Vector Byte 10 := #v[255, 230, 205, 180, 155, 130, 105, 80, 55, 30]

/-- The machine's configuration with the example table of R12, for tests. -/
def Config.withExampleTable : Config := { Config.machine with lut := Config.exampleTable }

end Sys2Proof
end

