-- ==== Sys2Proof/Machine/State.lean ====
section
/-! DEFINITION. Machine/State.lean: the state record of `10_state.md` R30 and its reset values (R57), the observations of a
run (`00_scope.md` R9, R15), the stimuli to come, and the reasons a step can stop. -/

namespace Sys2Proof.Machine

/-- `IR_STATE`, the six decoder states in the source's order of listing (`10_state.md` R33). -/
inductive IrState where
  | idle
  | mark
  | space
  | highBit
  | lowBit
  | repeatFrame
deriving DecidableEq, Repr

/-- The four causes of a soft error (`60_exceptions.md` R321); names only, stored nowhere. -/
inductive SoftError where
  | markShort
  | highOutOfBounds
  | lowOutOfBounds
  | repeatOutOfBounds
deriving DecidableEq, Repr

/-- `FLAGS`, the four flag bits (`10_state.md` R51). -/
structure Flags where
  /-- `FRAME_RDY`: `FRAME` holds a new frame. -/
  frameRdy : Bool
  /-- `RPT_PEND`: a repeat frame is pending. -/
  rptPend : Bool
  /-- `OVF_F`: an overflow tick has occurred. -/
  ovfF : Bool
  /-- `ZC_F`: a zero-cross has occurred. -/
  zcF : Bool
deriving DecidableEq, Repr

/-- The whole state of the block, the nineteen elements of `10_state.md` R30. -/
structure Block where
  /-- `IR_STATE` (R33). -/
  irState : IrState
  /-- `PHASE_ANGLE` (R34). -/
  phaseAngle : Byte
  /-- `DLY_CNT` (R35). -/
  dlyCnt : Byte
  /-- `DLY_ARMED` (R36). -/
  dlyArmed : Bool
  /-- `GATE` (R37), written only by `State.driveGate` and reset. -/
  gate : Bool
  /-- `RUN` (R38). -/
  run : Bool
  /-- `LEVEL` (R39), 4 bits, always 0 to 9 (log entry 10). -/
  level : Level
  /-- `START_REQ` (R40). -/
  startReq : Bool
  /-- `KICK_CNT` (R41). -/
  kickCnt : Byte
  /-- `TB_CNT` (R42). -/
  tbCnt : Ticks
  /-- `HC_CNT` (R43). -/
  hcCnt : Byte
  /-- `OVF_CNT` (R44). -/
  ovfCnt : Byte
  /-- `IR_LEVEL` (R45). -/
  irLevel : Bool
  /-- `IR_LAST` (R46). -/
  irLast : Ticks
  /-- `ACC` (R47). -/
  acc : FrameWord
  /-- `BITCNT` (R48), 6 bits. -/
  bitCnt : BitVec 6
  /-- `FRAME` (R49). -/
  frame : FrameWord
  /-- `IR_IDLE` (R50), 2 bits. -/
  irIdle : BitVec 2
  /-- `FLAGS` (R51). -/
  flags : Flags
deriving DecidableEq, Repr

/-- The machine: the block, the two observations of the run so far, and the stimuli still to be applied. The block reads
none of the last three (`10_state.md` R53). -/
structure State where
  /-- The state of the block. -/
  block : Block
  /-- The gate trace, oldest transition first (`00_scope.md` R15). -/
  gateTrace : List Bool
  /-- The bytes that `RD` operations returned, oldest first (R9; log entry 7). -/
  readTrace : List Byte
  /-- The operation words of the stimuli to come, next one first (R9; log entry 4). -/
  stimuli : List OpWord
deriving DecidableEq, Repr

/-- The operation-local values of an infrared edge (`43_ir_decoder.md` R205, R207): they do not survive the operation
(`10_state.md` R53). -/
structure Edge where
  /-- The block as the parts of the operation done so far have left it. -/
  block : Block
  /-- `lvl`, the new level of `ir`. -/
  lvl : Bool
  /-- `iv`, the ticks since the previous edge. -/
  iv : Ticks
  /-- `err`, with the cause that set it (log entry 11). -/
  err : Option SoftError
deriving DecidableEq, Repr

/-- The faults of the machine: there is none, "A model has no fault or stuck outcome for any run" (`60_exceptions.md`
R332). Nobody raises one; the absence is safe, because every operation is total. -/
inductive Fault where
deriving DecidableEq, Repr

/-- The reasons a step refuses. -/
inductive Refusal where
  /-- Raised by a dispatch arm of an operation without a meaning; there is no such arm. Safe: the machine stops. -/
  | notModelled (mnemonic : String)
  /-- Raised by the step on an operation word of a reserved class, which is no stimulus (`30_encoding.md` R124). Safe:
  the spec refuses the word. -/
  | reservedClass
  /-- Raised by the step on an operation word with a must-be-zero field that is not zero (R124). Safe: the spec refuses
  the word. -/
  | mustBeZero
deriving DecidableEq, Repr

/-- The block after reset (`10_state.md` R57, `70_reset_and_hazards.md` R350). -/
def Block.reset (c : Config) : Block :=
  { irState := .idle
    phaseAngle := c.lut[(0 : Level)]
    dlyCnt := 0
    dlyArmed := false
    gate := false
    run := false
    level := 0
    startReq := false
    kickCnt := 0
    tbCnt := 0
    hcCnt := 0
    ovfCnt := 0
    irLevel := false
    irLast := 0
    acc := 0
    bitCnt := 0
    frame := 0
    irIdle := 0
    flags := { frameRdy := false, rptPend := false, ovfF := false, zcF := false } }

/-- The start of a run under a configuration: the reset state with an empty gate trace (R351). -/
def State.resetOf (c : Config) : State :=
  { block := Block.reset c, gateTrace := [], readTrace := [], stimuli := [] }

/-- The machine right after reset (R57, R351). -/
def State.reset : State := State.resetOf Config.machine

end Sys2Proof.Machine
end

