-- ==== Sys2Proof/Machine/Operands.lean ====
section
/-! DEFINITION. Machine/Operands.lean: how each operand is formed (`30_encoding.md` R122), and the byte that each register
shows to the host (`10_state.md` R52). -/

namespace Sys2Proof.Machine

/-- `LUT[i]` (`00_scope.md` R14). -/
def lutAt (c : Config) (i : Level) : Byte := c.lut[i]

/-- The clamp of a written level (`41_speed_mapper.md` R172): the byte as a signed number, below 0 gives 0, above the
highest level, 9, gives that. -/
def clampLevel (c : Config) (d : Byte) : Level :=
  ⟨(max 0 (min (c.topLevel.val : Int) d.toInt)).toNat, by have := c.topLevel.isLt; omega⟩

/-- `iv`, the ticks since the previous edge, modulo 2^16 (`43_ir_decoder.md` R207). -/
def interval (c : Config) (b : Block) : Ticks := c.tick (b.tbCnt - b.irLast)

/-- An interval within two bounds, both inclusive (R211). -/
def within (lo hi : Nat) (iv : Ticks) : Bool := decide (lo ≤ iv.toNat) && decide (iv.toNat ≤ hi)

/-- The decoded bit of a pause: 1 iff `iv >= BIT_DISC` (R212). -/
def decodedBit (c : Config) (iv : Ticks) : Bool := decide (c.bitDisc ≤ iv.toNat)

/-- `shift_in` (R213): `RIGHT` is `{b, ACC[31:1]}` = `(b << 31) | (ACC >> 1)`, `LEFT` is `{ACC[30:0], b}` =
`((ACC << 1) mod 2^32) | b`. -/
def shiftIn (dir : AccDir) (acc : FrameWord) (bit : Bool) : FrameWord :=
  match dir with
  | .right => (BitVec.ofBool bit).setWidth 32 <<< 31 ||| acc >>> 1
  | .left => acc <<< 1 ||| (BitVec.ofBool bit).setWidth 32

/-- The code of a decoder state (`10_state.md` R33). -/
def IrState.code : IrState → BitVec 3
  | .idle => 0
  | .mark => 1
  | .space => 2
  | .highBit => 3
  | .lowBit => 4
  | .repeatFrame => 5

/-- A bit at place `k` of a byte; the bits not listed in a register read 0 (`10_state.md` R52). -/
def bitAt (k : Nat) (v : Bool) : Byte := (BitVec.ofBool v).setWidth 8 <<< k

/-- `LEVEL` as the host reads it (`44_host_access.md` R241). -/
def viewLevel (b : Block) : Byte := BitVec.ofNat 8 b.level.val

/-- `CTRL` (R242). -/
def viewCtrl (b : Block) : Byte := bitAt 0 b.startReq

/-- `ANGLE` (R243). -/
def viewAngle (b : Block) : Byte := b.phaseAngle

/-- `STATUS.KICK`: 1 iff `KICK_CNT != 0` (R244). -/
def kickBit (b : Block) : Bool := decide (b.kickCnt ≠ 0)

/-- `STATUS` (R244). -/
def viewStatus (b : Block) : Byte :=
  bitAt 4 b.irLevel ||| bitAt 3 b.dlyArmed ||| bitAt 2 b.gate ||| bitAt 1 (kickBit b) ||| bitAt 0 b.run

/-- `HCCNT` (R246). -/
def viewHccnt (b : Block) : Byte := b.hcCnt

/-- `OVFCNT` (R247). -/
def viewOvfcnt (b : Block) : Byte := b.ovfCnt

/-- `IRSTAT` (R248). -/
def viewIrstat (b : Block) : Byte := b.irState.code.setWidth 8 <<< 5 ||| (b.bitCnt.extractLsb' 0 5).setWidth 8

/-- `FRAME0` to `FRAME3`, least significant byte first (R249 to R252, `20_memory.md` R84). -/
def viewFrame (k : Nat) (b : Block) : Byte := b.frame.extractLsb' (8 * k) 8

/-- The reserved addresses read 0 (R253 to R256). -/
def viewReserved : Byte := 0

end Sys2Proof.Machine
end

