-- ==== Sys2Proof/Machine/Flags.lean ====
section
/-! DEFINITION. Machine/Flags.lean: setting, clearing and reading the four flags (`10_state.md` R51). Hardware sets, the
host clears by writing 1, and the inactivity window clears `RPT_PEND`. -/

namespace Sys2Proof.Machine

/-- A complete frame (`43_ir_decoder.md` R215). -/
def Block.raiseFrameRdy (b : Block) : Block := { b with flags := { b.flags with frameRdy := true } }

/-- A repeat frame (R214). -/
def Block.raiseRptPend (b : Block) : Block := { b with flags := { b.flags with rptPend := true } }

/-- The inactivity window clears the pending repeat (`42_timebase.md` R194). -/
def Block.dropRptPend (b : Block) : Block := { b with flags := { b.flags with rptPend := false } }

/-- An overflow tick (R193). -/
def Block.raiseOvfF (b : Block) : Block := { b with flags := { b.flags with ovfF := true } }

/-- A zero-cross (`40_firing_engine.md` R150). -/
def Block.raiseZcF (b : Block) : Block := { b with flags := { b.flags with zcF := true } }

/-- `FLAGS` as the host reads it (`44_host_access.md` R245). -/
def viewFlags (f : Flags) : Byte :=
  bitAt 3 f.zcF ||| bitAt 2 f.ovfF ||| bitAt 1 f.rptPend ||| bitAt 0 f.frameRdy

/-- Write-1-to-clear (R261): a 1 in bits 3:0 of the data clears the flag of that bit. -/
def clearFlags (d : Byte) (f : Flags) : Flags :=
  { frameRdy := f.frameRdy && !d.getLsbD 0
    rptPend := f.rptPend && !d.getLsbD 1
    ovfF := f.ovfF && !d.getLsbD 2
    zcF := f.zcF && !d.getLsbD 3 }

end Sys2Proof.Machine
end

