-- ==== Sys2Proof/Machine/Mapper.lean ====
section
/-! DEFINITION. Machine/Mapper.lean: the speed/phase mapper and the kick-start countdown (`41_speed_mapper.md`). -/

namespace Sys2Proof.Machine

/-- Applying a logical speed (`41_speed_mapper.md` R173), cases A to E in order; every read is of the state before the
operation. -/
def applyLevel (c : Config) (d : Byte) (b : Block) : Block :=
  let n := clampLevel c d
  let b' := { b with startReq := false, level := n }
  if n = 0 then { b' with run := false, kickCnt := 0, phaseAngle := lutAt c 0 }
  else if !b.run && b.startReq then
    { b' with run := true, kickCnt := c.kickHalfcycles, phaseAngle := lutAt c c.fullIdx }
  else if !b.run then { b' with phaseAngle := lutAt c n }
  else if kickBit b then b'
  else { b' with phaseAngle := lutAt c n }

/-- The kick-start countdown, step 4 of `ZC` (R176); the test for 0 is on the new value. -/
def kickCountdown (c : Config) (b : Block) : Block :=
  if kickBit b then
    let k := b.kickCnt - 1
    { b with kickCnt := k, phaseAngle := if k = 0 then lutAt c b.level else b.phaseAngle }
  else b

end Sys2Proof.Machine
end

