-- ==== Sys2Proof/Syntax.lean ====
section
/-! DEFINITION. Syntax.lean: the operations (`30_encoding.md` R123), one constructor per row of spec/opcode_table.json;
the register names (R127); the textual form of an operation (R126). -/

namespace Sys2Proof

/-- The operations of the block (`00_scope.md` R9, `30_encoding.md` R123): six hardware stimuli, sixteen host reads,
sixteen host writes with their data byte. -/
inductive Instr where
  /-- `RST`, reset (`70_reset_and_hazards.md` R350). -/
  | rst
  /-- `ZC`, the selected zero-cross transition (`40_firing_engine.md` R150). -/
  | zc
  /-- `DT`, one tick of the firing delay timer's clock (R153). -/
  | dt
  /-- `TB`, one tick of the timebase clock (`42_timebase.md` R191). -/
  | tb
  /-- `IRI`, an edge of `ir` from 1 to 0 (`43_ir_decoder.md` R205). -/
  | iri
  /-- `IRA`, an edge of `ir` from 0 to 1 (R205). -/
  | ira
  /-- `RD LEVEL` (`44_host_access.md` R241). -/
  | rdLevel
  /-- `RD CTRL` (`44_host_access.md` R242). -/
  | rdCtrl
  /-- `RD ANGLE` (`44_host_access.md` R243). -/
  | rdAngle
  /-- `RD STATUS` (`44_host_access.md` R244). -/
  | rdStatus
  /-- `RD FLAGS` (`44_host_access.md` R245). -/
  | rdFlags
  /-- `RD HCCNT` (`44_host_access.md` R246). -/
  | rdHccnt
  /-- `RD OVFCNT` (`44_host_access.md` R247). -/
  | rdOvfcnt
  /-- `RD IRSTAT` (`44_host_access.md` R248). -/
  | rdIrstat
  /-- `RD FRAME0` (`44_host_access.md` R249). -/
  | rdFrame0
  /-- `RD FRAME1` (`44_host_access.md` R250). -/
  | rdFrame1
  /-- `RD FRAME2` (`44_host_access.md` R251). -/
  | rdFrame2
  /-- `RD FRAME3` (`44_host_access.md` R252). -/
  | rdFrame3
  /-- `RD RSVC` (`44_host_access.md` R253). -/
  | rdRsvc
  /-- `RD RSVD` (`44_host_access.md` R254). -/
  | rdRsvd
  /-- `RD RSVE` (`44_host_access.md` R255). -/
  | rdRsve
  /-- `RD RSVF` (`44_host_access.md` R256). -/
  | rdRsvf
  /-- `WR LEVEL, data` (`44_host_access.md` R257). -/
  | wrLevel (data : Byte)
  /-- `WR CTRL, data` (`44_host_access.md` R258). -/
  | wrCtrl (data : Byte)
  /-- `WR ANGLE, data` (`44_host_access.md` R259). -/
  | wrAngle (data : Byte)
  /-- `WR STATUS, data` (`44_host_access.md` R260). -/
  | wrStatus (data : Byte)
  /-- `WR FLAGS, data` (`44_host_access.md` R261). -/
  | wrFlags (data : Byte)
  /-- `WR HCCNT, data` (`44_host_access.md` R262). -/
  | wrHccnt (data : Byte)
  /-- `WR OVFCNT, data` (`44_host_access.md` R263). -/
  | wrOvfcnt (data : Byte)
  /-- `WR IRSTAT, data` (`44_host_access.md` R264). -/
  | wrIrstat (data : Byte)
  /-- `WR FRAME0, data` (`44_host_access.md` R265). -/
  | wrFrame0 (data : Byte)
  /-- `WR FRAME1, data` (`44_host_access.md` R266). -/
  | wrFrame1 (data : Byte)
  /-- `WR FRAME2, data` (`44_host_access.md` R267). -/
  | wrFrame2 (data : Byte)
  /-- `WR FRAME3, data` (`44_host_access.md` R268). -/
  | wrFrame3 (data : Byte)
  /-- `WR RSVC, data` (`44_host_access.md` R269). -/
  | wrRsvc (data : Byte)
  /-- `WR RSVD, data` (`44_host_access.md` R270). -/
  | wrRsvd (data : Byte)
  /-- `WR RSVE, data` (`44_host_access.md` R271). -/
  | wrRsve (data : Byte)
  /-- `WR RSVF, data` (`44_host_access.md` R272). -/
  | wrRsvf (data : Byte)
deriving DecidableEq, Repr

/-- The register names of `30_encoding.md` R127, in address order 0x0 to 0xF (`10_state.md` R52). -/
inductive Reg where
  | level
  | ctrl
  | angle
  | status
  | flags
  | hccnt
  | ovfcnt
  | irstat
  | frame0
  | frame1
  | frame2
  | frame3
  | rsvc
  | rsvd
  | rsve
  | rsvf
deriving DecidableEq, Repr

/-- A register operand in the text of a run: a name of R127 or a number (R126). -/
inductive RegRef where
  | name (r : Reg)
  | number (n : Nat)
deriving DecidableEq, Repr

/-- One line of the text of a run, already split at its commas and its comment (`30_encoding.md` R126). -/
inductive Line where
  | rst
  | zc
  | dt
  | tb
  | ira
  | iri
  | rd (reg : RegRef)
  | wr (reg : RegRef) (imm : Int)
deriving DecidableEq, Repr

/-- A host access (`20_memory.md` R80): `RD` or `WR` of one register. -/
inductive HostAccess where
  | rd (r : Reg)
  | wr (r : Reg) (data : Byte)
deriving DecidableEq, Repr

/-- The stimuli that a clocked implementation finds in one cycle (`60_exceptions.md` R327): at most one host access and
at most one edge of `ir`, given by its new level. -/
structure Cycle where
  rst : Bool
  host : Option HostAccess
  zc : Bool
  dt : Bool
  ir : Option Bool
  tb : Bool
deriving DecidableEq, Repr

end Sys2Proof
end

