-- ==== Sys2Proof/WellFormed.lean ====
section
/-! DEFINITION. WellFormed.lean: which configurations, operations, lines of text and runs the spec admits. -/

namespace Sys2Proof

/-- The Speed Table does not increase with the level: `LUT[s] >= LUT[s+1]` for `s` = 0 to 8 (`41_speed_mapper.md`
R171(b)); each entry is a byte by its type (R171(a)). -/
def Config.tableDecreases (c : Config) : Bool :=
  (List.finRange 9).all fun s => decide (c.lut[s.val + 1] ≤ c.lut[s.val])

/-- The admissible configurations: R171 for the table; the ranges that `00_scope.md` R11 gives `KICK_HALFCYCLES` and
`IR_IDLE_TICKS`; the four thresholds that R11 defines from others; products below 2^16 (R16); counts and widths that the
elements of the state hold (`10_state.md` R30), and the port of `20_memory.md` R80 and R81 (log entry 2). -/
def Config.admissible (c : Config) : Bool :=
  c.tableDecreases
    && decide (c.kickHalfcycles ≠ 0) && decide (c.irIdleTicks ≠ 0)
    && decide (c.spaceRpt = 2 * c.spaceMin) && decide (c.bitDisc = 3 * c.bitMin)
    && decide (c.lowMin = c.bitMin) && decide (c.lowMax = 3 * c.bitMax)
    && decide (c.fullIdx.val < c.nLevels) && decide (c.nLevels ≤ 10)
    && decide (0 < c.frameBits) && decide (c.frameBits ≤ 32) && decide (0 < c.tbWidth) && decide (c.tbWidth ≤ 16)
    && decide (c.hostAw = 4) && decide (c.hostDw = 8)
    && decide (c.spaceRpt < 2 ^ 16) && decide (c.bitDisc < 2 ^ 16) && decide (c.lowMax < 2 ^ 16)

/-- The integrator's constraint of `70_reset_and_hazards.md` R361: at every powered level `LUT[s] + 1` ticks of `DT` fit
into the shortest half-cycle, given in nanoseconds. No rule of the block depends on it. -/
def Config.firesWithin (c : Config) (halfCycle : Nat) : Bool :=
  (List.finRange 9).all fun s => decide ((c.lut[s.val + 1].toNat + 1) * c.tDt < halfCycle)

/-- Every operation is well formed: the only operand is a data byte, and every byte may be written to every address
(`30_encoding.md` R124; `44_host_access.md` R240). An ill-formed operand has no term of type `Instr`; the ill-formed
operands of the text of a run are refused by `Line.wellFormed`. -/
def Instr.wellFormed : Instr → Bool := fun _ => true

/-- A register operand is a name of R127 or a number 0 to 15 (`30_encoding.md` R126). -/
def RegRef.wellFormed : RegRef → Bool
  | .name _ => true
  | .number n => decide (n ≤ 15)

/-- A line's operands are in range: `imm` is a number 0 to 255 or a negative number -128 to -1 (R126). -/
def Line.wellFormed : Line → Bool
  | .rd r => r.wellFormed
  | .wr r imm => r.wellFormed && decide (-128 ≤ imm) && decide (imm ≤ 255)
  | .rst | .zc | .dt | .tb | .ira | .iri => true

/-- The edges of `ir` in a sequence of operations alternate, given the level before it (`43_ir_decoder.md` R206): an
`IRA` comes only at level 0, an `IRI` only at level 1, and a reset puts `IR_LEVEL` to 0. -/
def edgesAlternate : Bool → List Instr → Bool
  | _, [] => true
  | level, .ira :: ops => !level && edgesAlternate true ops
  | level, .iri :: ops => level && edgesAlternate false ops
  | _, .rst :: ops => edgesAlternate false ops
  | level, _ :: ops => edgesAlternate level ops

/-- A sequence of operations is a run of the block from reset (R206, R351): a premise about the environment, which the
hardware does not test (log entry 8). -/
def isRun (ops : List Instr) : Bool := edgesAlternate false ops

end Sys2Proof
end

