-- ==== Sys2Proof/Decode.lean ====
section
/-! DEFINITION. Decode.lean: operation words (`30_encoding.md` R118 to R124), the decoder, the encoder, and the assembly of
a line of text (R126, R127). -/

namespace Sys2Proof

/-- Why an operation word spells no operation (`30_encoding.md` R124): its class is reserved, or a field that must be zero
is not. -/
inductive DecodeError where
  | reservedClass
  | mustBeZero
deriving DecidableEq, Repr

/-- `op[15:12]`, the class (R118). -/
def opClass (w : OpWord) : BitVec 4 := w.extractLsb' 12 4

/-- `op[11:8]`, the register address of format HB (R120). -/
def opAddr (w : OpWord) : RegAddr := w.extractLsb' 8 4

/-- `op[7:0]`, the data byte of format HB (R120). -/
def opData (w : OpWord) : Byte := w.extractLsb' 0 8

/-- `op[11:1]`, which must be zero in format EV (R119). -/
def opZero (w : OpWord) : BitVec 11 := w.extractLsb' 1 11

/-- `op[0]`, the `lvl` bit of format EV (R119). -/
def opLvl (w : OpWord) : Bool := w.getLsbD 0

/-- The address of a named register (R127). -/
def Reg.addr : Reg → RegAddr
  | .level => 0x0#4
  | .ctrl => 0x1#4
  | .angle => 0x2#4
  | .status => 0x3#4
  | .flags => 0x4#4
  | .hccnt => 0x5#4
  | .ovfcnt => 0x6#4
  | .irstat => 0x7#4
  | .frame0 => 0x8#4
  | .frame1 => 0x9#4
  | .frame2 => 0xA#4
  | .frame3 => 0xB#4
  | .rsvc => 0xC#4
  | .rsvd => 0xD#4
  | .rsve => 0xE#4
  | .rsvf => 0xF#4

/-- The register at an address; every address has one (R121, R127). -/
def Reg.ofAddr (a : RegAddr) : Reg :=
  match a.toNat with
  | 0 => .level
  | 1 => .ctrl
  | 2 => .angle
  | 3 => .status
  | 4 => .flags
  | 5 => .hccnt
  | 6 => .ovfcnt
  | 7 => .irstat
  | 8 => .frame0
  | 9 => .frame1
  | 10 => .frame2
  | 11 => .frame3
  | 12 => .rsvc
  | 13 => .rsvd
  | 14 => .rsve
  | _ => .rsvf

/-- `RD` of a register (R123). -/
def Reg.readOp : Reg → Instr
  | .level => .rdLevel
  | .ctrl => .rdCtrl
  | .angle => .rdAngle
  | .status => .rdStatus
  | .flags => .rdFlags
  | .hccnt => .rdHccnt
  | .ovfcnt => .rdOvfcnt
  | .irstat => .rdIrstat
  | .frame0 => .rdFrame0
  | .frame1 => .rdFrame1
  | .frame2 => .rdFrame2
  | .frame3 => .rdFrame3
  | .rsvc => .rdRsvc
  | .rsvd => .rdRsvd
  | .rsve => .rdRsve
  | .rsvf => .rdRsvf

/-- `WR` of a byte to a register (R123). -/
def Reg.writeOp (r : Reg) (data : Byte) : Instr :=
  match r with
  | .level => .wrLevel data
  | .ctrl => .wrCtrl data
  | .angle => .wrAngle data
  | .status => .wrStatus data
  | .flags => .wrFlags data
  | .hccnt => .wrHccnt data
  | .ovfcnt => .wrOvfcnt data
  | .irstat => .wrIrstat data
  | .frame0 => .wrFrame0 data
  | .frame1 => .wrFrame1 data
  | .frame2 => .wrFrame2 data
  | .frame3 => .wrFrame3 data
  | .rsvc => .wrRsvc data
  | .rsvd => .wrRsvd data
  | .rsve => .wrRsve data
  | .rsvf => .wrRsvf data

/-- The operation if its must-be-zero field is zero, else the refusal of R124. -/
def accept (zero : Bool) (i : Instr) : Except DecodeError Instr :=
  if zero then .ok i else .error .mustBeZero

/-- The edge operation of a level: 1 is `IRA`, 0 is `IRI` (R119). -/
def edgeOp (lvl : Bool) : Instr := if lvl then .ira else .iri

/-- The decoder of operation words (R123): it reads the class; classes 0x0 to 0x3 want `op[11:0]` = 0, class 0x4 wants
`op[11:1]` = 0 and takes `op[0]`, class 0x8 wants `op[7:0]` = 0 and takes `op[11:8]`, class 0x9 takes `op[11:8]` and
`op[7:0]`; anything else is reserved (R124). -/
def decode (w : OpWord) : Except DecodeError Instr :=
  match (opClass w).toNat with
  | 0x0 => accept (opZero w == 0 && !opLvl w) .rst
  | 0x1 => accept (opZero w == 0 && !opLvl w) .zc
  | 0x2 => accept (opZero w == 0 && !opLvl w) .dt
  | 0x3 => accept (opZero w == 0 && !opLvl w) .tb
  | 0x4 => accept (opZero w == 0) (edgeOp (opLvl w))
  | 0x8 => accept (opData w == 0) (Reg.ofAddr (opAddr w)).readOp
  | 0x9 => .ok ((Reg.ofAddr (opAddr w)).writeOp (opData w))
  | _ => .error .reservedClass

/-- Format EV (R119): class, eleven zero bits, `lvl`. -/
def formatEV (cls : BitVec 4) (lvl : Bool) : OpWord := cls.setWidth 16 <<< 12 ||| (BitVec.ofBool lvl).setWidth 16

/-- Format HB (R120): class, address, data. -/
def formatHB (cls : BitVec 4) (r : Reg) (data : Byte) : OpWord :=
  cls.setWidth 16 <<< 12 ||| r.addr.setWidth 16 <<< 8 ||| data.setWidth 16

/-- The operation word of an operation (R119, R120). -/
def encode : Instr → OpWord
  | .rst => formatEV 0x0 false
  | .zc => formatEV 0x1 false
  | .dt => formatEV 0x2 false
  | .tb => formatEV 0x3 false
  | .iri => formatEV 0x4 false
  | .ira => formatEV 0x4 true
  | .rdLevel => formatHB 0x8 .level 0
  | .rdCtrl => formatHB 0x8 .ctrl 0
  | .rdAngle => formatHB 0x8 .angle 0
  | .rdStatus => formatHB 0x8 .status 0
  | .rdFlags => formatHB 0x8 .flags 0
  | .rdHccnt => formatHB 0x8 .hccnt 0
  | .rdOvfcnt => formatHB 0x8 .ovfcnt 0
  | .rdIrstat => formatHB 0x8 .irstat 0
  | .rdFrame0 => formatHB 0x8 .frame0 0
  | .rdFrame1 => formatHB 0x8 .frame1 0
  | .rdFrame2 => formatHB 0x8 .frame2 0
  | .rdFrame3 => formatHB 0x8 .frame3 0
  | .rdRsvc => formatHB 0x8 .rsvc 0
  | .rdRsvd => formatHB 0x8 .rsvd 0
  | .rdRsve => formatHB 0x8 .rsve 0
  | .rdRsvf => formatHB 0x8 .rsvf 0
  | .wrLevel data => formatHB 0x9 .level data
  | .wrCtrl data => formatHB 0x9 .ctrl data
  | .wrAngle data => formatHB 0x9 .angle data
  | .wrStatus data => formatHB 0x9 .status data
  | .wrFlags data => formatHB 0x9 .flags data
  | .wrHccnt data => formatHB 0x9 .hccnt data
  | .wrOvfcnt data => formatHB 0x9 .ovfcnt data
  | .wrIrstat data => formatHB 0x9 .irstat data
  | .wrFrame0 data => formatHB 0x9 .frame0 data
  | .wrFrame1 data => formatHB 0x9 .frame1 data
  | .wrFrame2 data => formatHB 0x9 .frame2 data
  | .wrFrame3 data => formatHB 0x9 .frame3 data
  | .wrRsvc data => formatHB 0x9 .rsvc data
  | .wrRsvd data => formatHB 0x9 .rsvd data
  | .wrRsve data => formatHB 0x9 .rsve data
  | .wrRsvf data => formatHB 0x9 .rsvf data

/-- The operation of an opcode-table word: an operation word has 16 bits, so bits of `w` from 16 up are no part of it
(R118, R125; log entry 13). -/
def decodeTableWord (nbits w : Nat) : Option Instr :=
  match decode (BitVec.ofNat 16 (w % 2 ^ nbits)) with
  | .ok i => some i
  | .error _ => none

/-- The register a register operand names (R126, R127). -/
def RegRef.reg : RegRef → Reg
  | .name r => r
  | .number n => Reg.ofAddr (BitVec.ofNat 4 n)

/-- The data byte an `imm` stands for: a negative number is its two's-complement byte (R126). -/
def immByte (imm : Int) : Byte := BitVec.ofInt 8 imm

/-- The operation a line of text spells; none where an operand is out of range (R126). -/
def assemble (l : Line) : Option Instr :=
  if l.wellFormed then
    match l with
    | .rst => some .rst
    | .zc => some .zc
    | .dt => some .dt
    | .tb => some .tb
    | .ira => some .ira
    | .iri => some .iri
    | .rd r => some r.reg.readOp
    | .wr r imm => some (r.reg.writeOp (immByte imm))
  else none

end Sys2Proof
end

