-- ==== Sys2Proof/Machine/Ops.lean ====
section
/-! DEFINITION. Machine/Ops.lean: the primitives of the pseudocode (`00_scope.md` R14, R15), the soft error, which is the
block's one exception (`60_exceptions.md` R320, R328), and the arrival of a stimulus. -/

namespace Sys2Proof.Machine

/-- An operation that only changes the block. -/
def State.mapBlock (f : Block → Block) (s : State) : State := { s with block := f s.block }

/-- `drive gate <- v` (`00_scope.md` R15): append `v` to the gate trace if it differs from `GATE`, then `GATE <- v`. -/
def State.driveGate (v : Bool) (s : State) : State :=
  { s with
    block := { s.block with gate := v }
    gateTrace := if v = s.block.gate then s.gateTrace else s.gateTrace ++ [v] }

/-- The result of an `RD`: a byte returned to the host, no state change (`20_memory.md` R82). -/
def State.returnByte (v : Byte) (s : State) : State := { s with readTrace := s.readTrace ++ [v] }

/-- `raise SoftError(cause)` (`60_exceptions.md` R320): its whole effect is to set `err`; the rest of the rule that raises
it still runs. -/
def raiseSoftError (cause : SoftError) (e : Edge) : Edge := { e with err := some cause }

/-- The decoder reset (`43_ir_decoder.md` R216): `IR_STATE <- Idle; BITCNT <- 0` and nothing else. -/
def decoderReset (b : Block) : Block := { b with irState := .idle, bitCnt := 0 }

/-- TAKING THE EXCEPTION (`60_exceptions.md` R328, R329): at the end of the operation that raised it the decoder is reset;
nothing is saved, no mode and no mask changes, and control goes to Idle. There is no return (R330): the next edge is
judged in Idle. -/
def takeSoftError (e : Edge) : Block := decoderReset e.block

/-- The next stimulus and the machine that waits for the ones after it; none where no stimulus has arrived. -/
def State.nextStimulus (s : State) : Option (OpWord × State) :=
  match s.stimuli with
  | [] => none
  | w :: rest => some (w, { s with stimuli := rest })

/-- A stimulus that arrives before those already waiting. -/
def State.arrive (w : OpWord) (s : State) : State := { s with stimuli := w :: s.stimuli }

/-- The refusal of an operation word that spells no operation (`30_encoding.md` R124). -/
def refusalOf : DecodeError → Refusal
  | .reservedClass => .reservedClass
  | .mustBeZero => .mustBeZero

end Sys2Proof.Machine
end

