-- ==== Sys2Proof/Machine/Firing.lean ====
section
/-! DEFINITION. Machine/Firing.lean: the phase firing engine, operations `ZC` and `DT` (`40_firing_engine.md`). -/

namespace Sys2Proof.Machine

/-- Step 1 of `ZC` (R150): `HC_CNT` and `ZC_F`. -/
def countHalfCycle (b : Block) : Block := { b with hcCnt := b.hcCnt + 1 }.raiseZcF

/-- Step 2 of `ZC`, the reload (R151). -/
def reloadDelay (b : Block) : Block := { b with dlyCnt := b.phaseAngle, dlyArmed := true }

/-- The condition of forced conduction (R152): running, at or above full speed in the order of power. -/
def atFullSpeed (c : Config) (b : Block) : Bool := b.run && decide (b.phaseAngle ≤ lutAt c c.fullIdx)

/-- Step 3 of `ZC`, forced conduction (R152). -/
def forceConduction (c : Config) (s : State) : State :=
  if atFullSpeed c s.block then s.driveGate true else s

/-- `ZC` (R150), four steps in order. -/
def zeroCross (c : Config) (s : State) : State :=
  (forceConduction c ((s.mapBlock countHalfCycle).mapBlock reloadDelay)).mapBlock (kickCountdown c)

/-- The expiry (R154): disarm, a pulse if the fan runs, and the gate is left at 0. -/
def expiry (s : State) : State :=
  let disarmed := s.mapBlock fun b => { b with dlyArmed := false }
  (if disarmed.block.run then disarmed.driveGate true else disarmed).driveGate false

/-- `DT` (R153). -/
def delayTick (s : State) : State :=
  if s.block.dlyArmed then
    if s.block.dlyCnt = 0 then expiry s else s.mapBlock fun b => { b with dlyCnt := b.dlyCnt - 1 }
  else s

/-- The observable of the firing engine: the gate trace and `GATE`, and nothing of current, power, the element, the mains
or the width of the pulse (R163). -/
def State.gateObservable (s : State) : List Bool × Bool := (s.gateTrace, s.block.gate)

/-- `ZC`. -/
def execZc (s : State) : Host.Outcome State Fault Refusal := .next (zeroCross Config.machine s)

/-- `DT`. -/
def execDt (s : State) : Host.Outcome State Fault Refusal := .next (delayTick s)

end Sys2Proof.Machine
end

