-- ==== Sys2Proof/Machine/HostRead.lean ====
section
/-! DEFINITION. Machine/HostRead.lean: the sixteen reads (`44_host_access.md` R241 to R256). A read returns a byte and
changes no state of the block (R240). -/

namespace Sys2Proof.Machine

/-- `RD LEVEL` (R241). -/
def execRdLevel (s : State) : Host.Outcome State Fault Refusal := .next (s.returnByte (viewLevel s.block))

/-- `RD CTRL` (R242). -/
def execRdCtrl (s : State) : Host.Outcome State Fault Refusal := .next (s.returnByte (viewCtrl s.block))

/-- `RD ANGLE` (R243). -/
def execRdAngle (s : State) : Host.Outcome State Fault Refusal := .next (s.returnByte (viewAngle s.block))

/-- `RD STATUS` (R244). -/
def execRdStatus (s : State) : Host.Outcome State Fault Refusal := .next (s.returnByte (viewStatus s.block))

/-- `RD FLAGS` (R245). -/
def execRdFlags (s : State) : Host.Outcome State Fault Refusal := .next (s.returnByte (viewFlags s.block.flags))

/-- `RD HCCNT` (R246). -/
def execRdHccnt (s : State) : Host.Outcome State Fault Refusal := .next (s.returnByte (viewHccnt s.block))

/-- `RD OVFCNT` (R247). -/
def execRdOvfcnt (s : State) : Host.Outcome State Fault Refusal := .next (s.returnByte (viewOvfcnt s.block))

/-- `RD IRSTAT` (R248). -/
def execRdIrstat (s : State) : Host.Outcome State Fault Refusal := .next (s.returnByte (viewIrstat s.block))

/-- `RD FRAME0` (R249). -/
def execRdFrame0 (s : State) : Host.Outcome State Fault Refusal := .next (s.returnByte (viewFrame 0 s.block))

/-- `RD FRAME1` (R250). -/
def execRdFrame1 (s : State) : Host.Outcome State Fault Refusal := .next (s.returnByte (viewFrame 1 s.block))

/-- `RD FRAME2` (R251). -/
def execRdFrame2 (s : State) : Host.Outcome State Fault Refusal := .next (s.returnByte (viewFrame 2 s.block))

/-- `RD FRAME3` (R252). -/
def execRdFrame3 (s : State) : Host.Outcome State Fault Refusal := .next (s.returnByte (viewFrame 3 s.block))

/-- `RD RSVC` (R253). -/
def execRdRsvc (s : State) : Host.Outcome State Fault Refusal := .next (s.returnByte viewReserved)

/-- `RD RSVD` (R254). -/
def execRdRsvd (s : State) : Host.Outcome State Fault Refusal := .next (s.returnByte viewReserved)

/-- `RD RSVE` (R255). -/
def execRdRsve (s : State) : Host.Outcome State Fault Refusal := .next (s.returnByte viewReserved)

/-- `RD RSVF` (R256). -/
def execRdRsvf (s : State) : Host.Outcome State Fault Refusal := .next (s.returnByte viewReserved)

end Sys2Proof.Machine
end

