-- ==== Sys2Proof/Machine/HostWrite.lean ====
section
/-! DEFINITION. Machine/HostWrite.lean: the sixteen writes (`44_host_access.md` R257 to R272). Three have an effect; the
others are accepted and ignored (R240). -/

namespace Sys2Proof.Machine

/-- The start request that a write to `CTRL` stores: bit 0 of the data (R258). -/
def writeCtrl (d : Byte) (b : Block) : Block := { b with startReq := d.getLsbD 0 }

/-- The flags that a write to `FLAGS` clears (R261). -/
def writeFlags (d : Byte) (b : Block) : Block := { b with flags := clearFlags d b.flags }

/-- `WR LEVEL, data` (R257). -/
def execWrLevel (data : Byte) (s : State) : Host.Outcome State Fault Refusal :=
  .next (s.mapBlock (applyLevel Config.machine data))

/-- `WR CTRL, data` (R258). -/
def execWrCtrl (data : Byte) (s : State) : Host.Outcome State Fault Refusal :=
  .next (s.mapBlock (writeCtrl data))

/-- `WR ANGLE, data`: ignored (R259). -/
def execWrAngle (_data : Byte) (s : State) : Host.Outcome State Fault Refusal := .next s

/-- `WR STATUS, data`: ignored (R260). -/
def execWrStatus (_data : Byte) (s : State) : Host.Outcome State Fault Refusal := .next s

/-- `WR FLAGS, data` (R261). -/
def execWrFlags (data : Byte) (s : State) : Host.Outcome State Fault Refusal :=
  .next (s.mapBlock (writeFlags data))

/-- `WR HCCNT, data`: ignored (R262). -/
def execWrHccnt (_data : Byte) (s : State) : Host.Outcome State Fault Refusal := .next s

/-- `WR OVFCNT, data`: ignored (R263). -/
def execWrOvfcnt (_data : Byte) (s : State) : Host.Outcome State Fault Refusal := .next s

/-- `WR IRSTAT, data`: ignored (R264). -/
def execWrIrstat (_data : Byte) (s : State) : Host.Outcome State Fault Refusal := .next s

/-- `WR FRAME0, data`: ignored (R265). -/
def execWrFrame0 (_data : Byte) (s : State) : Host.Outcome State Fault Refusal := .next s

/-- `WR FRAME1, data`: ignored (R266). -/
def execWrFrame1 (_data : Byte) (s : State) : Host.Outcome State Fault Refusal := .next s

/-- `WR FRAME2, data`: ignored (R267). -/
def execWrFrame2 (_data : Byte) (s : State) : Host.Outcome State Fault Refusal := .next s

/-- `WR FRAME3, data`: ignored (R268). -/
def execWrFrame3 (_data : Byte) (s : State) : Host.Outcome State Fault Refusal := .next s

/-- `WR RSVC, data`: ignored (R269). -/
def execWrRsvc (_data : Byte) (s : State) : Host.Outcome State Fault Refusal := .next s

/-- `WR RSVD, data`: ignored (R270). -/
def execWrRsvd (_data : Byte) (s : State) : Host.Outcome State Fault Refusal := .next s

/-- `WR RSVE, data`: ignored (R271). -/
def execWrRsve (_data : Byte) (s : State) : Host.Outcome State Fault Refusal := .next s

/-- `WR RSVF, data`: ignored (R272). -/
def execWrRsvf (_data : Byte) (s : State) : Host.Outcome State Fault Refusal := .next s

end Sys2Proof.Machine
end

