-- ==== Sys2Proof/Machine/IrDecoder.lean ====
section
/-! DEFINITION. Machine/IrDecoder.lean: the NEC bit-timing decoder, operations `IRA` and `IRI` (`43_ir_decoder.md`). -/

namespace Sys2Proof.Machine

/-- The prologue of every edge (R207). -/
def edgePrologue (c : Config) (lvl : Bool) (b : Block) : Edge :=
  { block := { b with irLast := b.tbCnt, irLevel := lvl, irIdle := 0 }
    lvl := lvl
    iv := interval c b
    err := none }

/-- `IR_STATE <- st`. -/
def Edge.goto (st : IrState) (e : Edge) : Edge := { e with block := { e.block with irState := st } }

/-- Raise a soft error unless a condition holds. -/
def Edge.require (ok : Bool) (cause : SoftError) (e : Edge) : Edge := if ok then e else raiseSoftError cause e

/-- Idle (R208). -/
def ruleIdle (e : Edge) : Edge :=
  if e.lvl then { e with block := { e.block with acc := 0, bitCnt := 0, irState := .mark } } else e

/-- Mark (R209). -/
def ruleMark (c : Config) (e : Edge) : Edge :=
  (e.require (decide (c.markMin ≤ e.iv.toNat)) .markShort).goto .space

/-- Space (R210). -/
def ruleSpace (c : Config) (e : Edge) : Edge :=
  e.goto (if e.iv.toNat < c.spaceRpt then .repeatFrame else .highBit)

/-- HighBit (R211). -/
def ruleHighBit (c : Config) (e : Edge) : Edge :=
  (e.require (within c.bitMin c.bitMax e.iv) .highOutOfBounds).goto .lowBit

/-- The shift and the count of LowBit (R212, R213), made whether or not the error was raised. -/
def takeBit (c : Config) (iv : Ticks) (b : Block) : Block :=
  { b with acc := shiftIn c.accDir b.acc (decodedBit c iv), bitCnt := b.bitCnt + 1 }

/-- LowBit (R212). -/
def ruleLowBit (c : Config) (e : Edge) : Edge :=
  let e' := e.require (within c.lowMin c.lowMax e.iv) .lowOutOfBounds
  { e' with block := takeBit c e.iv e'.block }.goto .highBit

/-- Repeat (R214). -/
def ruleRepeat (c : Config) (e : Edge) : Edge :=
  let short := within c.bitMin c.bitMax e.iv
  let e' := if short then { e with block := e.block.raiseRptPend } else raiseSoftError .repeatOutOfBounds e
  e'.goto .idle

/-- The rule of the state held before the operation (R205 part 2). -/
def stateRule (c : Config) (e : Edge) : Edge :=
  match e.block.irState with
  | .idle => ruleIdle e
  | .mark => ruleMark c e
  | .space => ruleSpace c e
  | .highBit => ruleHighBit c e
  | .lowBit => ruleLowBit c e
  | .repeatFrame => ruleRepeat c e

/-- Frame completion (R215). -/
def completeFrame (b : Block) : Block := decoderReset ({ b with frame := b.acc }.raiseFrameRdy)

/-- The epilogue of every edge (R217): a soft error beats completion. -/
def edgeEpilogue (c : Config) (e : Edge) : Block :=
  if e.err.isSome then takeSoftError e
  else if e.block.bitCnt.toNat = c.frameBits then completeFrame e.block
  else e.block

/-- An infrared edge to level `lvl` (R205): prologue, the rule of the state, epilogue. -/
def irEdge (c : Config) (lvl : Bool) (b : Block) : Block := edgeEpilogue c (stateRule c (edgePrologue c lvl b))

/-- The soft error that an edge raises, if any (R321): a name for proofs, not state. -/
def edgeError (c : Config) (lvl : Bool) (b : Block) : Option SoftError := (stateRule c (edgePrologue c lvl b)).err

/-- `IRI`. -/
def execIri (s : State) : Host.Outcome State Fault Refusal := .next (s.mapBlock (irEdge Config.machine false))

/-- `IRA`. -/
def execIra (s : State) : Host.Outcome State Fault Refusal := .next (s.mapBlock (irEdge Config.machine true))

end Sys2Proof.Machine
end

