-- ==== Sys2Proof/Machine/Reset.lean ====
section
/-! DEFINITION. Machine/Reset.lean: the operation `RST` (`70_reset_and_hazards.md` R350). -/

namespace Sys2Proof.Machine

/-- `RST` (R350): `drive gate <- 0`, then every element at its reset value. It leaves the traces and the stimuli to come
alone (R353). -/
def resetOp (c : Config) (s : State) : State := (s.driveGate false).mapBlock fun _ => Block.reset c

/-- `RST`. -/
def execRst (s : State) : Host.Outcome State Fault Refusal := .next (resetOp Config.machine s)

end Sys2Proof.Machine
end

