-- ==== Sys2Proof/Machine/Timebase.lean ====
section
/-! DEFINITION. Machine/Timebase.lean: the timebase, operation `TB` (`42_timebase.md`). -/

namespace Sys2Proof.Machine

/-- The overflow tick (R193). -/
def overflowTick (b : Block) : Block := { b with ovfCnt := b.ovfCnt + 1 }.raiseOvfF

/-- The new value of `IR_IDLE` at an overflow tick, `min(IR_IDLE + 1, IR_IDLE_TICKS)` (R194, `00_scope.md` R16). -/
def saturatedIdle (c : Config) (b : Block) : Nat := min (b.irIdle.toNat + 1) c.irIdleTicks.toNat

/-- The inactivity window (R194); the test is on the new value of `IR_IDLE`. -/
def inactivityWindow (c : Config) (b : Block) : Block :=
  let b' := { b with irIdle := BitVec.ofNat 2 (saturatedIdle c b) }
  if c.irIdleTicks.toNat ≤ saturatedIdle c b then b'.dropRptPend else b'

/-- `TB` (R191): the counter goes up modulo `2^TB_WIDTH`; the overflow tick and the window run when it wraps to 0. -/
def timebaseTick (c : Config) (b : Block) : Block :=
  let b' := { b with tbCnt := c.tick (b.tbCnt + 1) }
  if b'.tbCnt = 0 then inactivityWindow c (overflowTick b') else b'

/-- `TB`. -/
def execTb (s : State) : Host.Outcome State Fault Refusal := .next (s.mapBlock (timebaseTick Config.machine))

end Sys2Proof.Machine
end

