-- ==== Sys2Proof/Machine/Dispatch.lean ====
section
/-! DEFINITION. Machine/Dispatch.lean: the meaning of every operation, one arm per constructor of `Instr`. -/

namespace Sys2Proof.Machine

def exec (i : Instr) (s : State) : Host.Outcome State Fault Refusal :=
  match i with
  | .rst => Sys2Proof.Machine.execRst s
  | .zc => Sys2Proof.Machine.execZc s
  | .dt => Sys2Proof.Machine.execDt s
  | .tb => Sys2Proof.Machine.execTb s
  | .iri => Sys2Proof.Machine.execIri s
  | .ira => Sys2Proof.Machine.execIra s
  | .rdLevel => Sys2Proof.Machine.execRdLevel s
  | .rdCtrl => Sys2Proof.Machine.execRdCtrl s
  | .rdAngle => Sys2Proof.Machine.execRdAngle s
  | .rdStatus => Sys2Proof.Machine.execRdStatus s
  | .rdFlags => Sys2Proof.Machine.execRdFlags s
  | .rdHccnt => Sys2Proof.Machine.execRdHccnt s
  | .rdOvfcnt => Sys2Proof.Machine.execRdOvfcnt s
  | .rdIrstat => Sys2Proof.Machine.execRdIrstat s
  | .rdFrame0 => Sys2Proof.Machine.execRdFrame0 s
  | .rdFrame1 => Sys2Proof.Machine.execRdFrame1 s
  | .rdFrame2 => Sys2Proof.Machine.execRdFrame2 s
  | .rdFrame3 => Sys2Proof.Machine.execRdFrame3 s
  | .rdRsvc => Sys2Proof.Machine.execRdRsvc s
  | .rdRsvd => Sys2Proof.Machine.execRdRsvd s
  | .rdRsve => Sys2Proof.Machine.execRdRsve s
  | .rdRsvf => Sys2Proof.Machine.execRdRsvf s
  | .wrLevel data => Sys2Proof.Machine.execWrLevel data s
  | .wrCtrl data => Sys2Proof.Machine.execWrCtrl data s
  | .wrAngle data => Sys2Proof.Machine.execWrAngle data s
  | .wrStatus data => Sys2Proof.Machine.execWrStatus data s
  | .wrFlags data => Sys2Proof.Machine.execWrFlags data s
  | .wrHccnt data => Sys2Proof.Machine.execWrHccnt data s
  | .wrOvfcnt data => Sys2Proof.Machine.execWrOvfcnt data s
  | .wrIrstat data => Sys2Proof.Machine.execWrIrstat data s
  | .wrFrame0 data => Sys2Proof.Machine.execWrFrame0 data s
  | .wrFrame1 data => Sys2Proof.Machine.execWrFrame1 data s
  | .wrFrame2 data => Sys2Proof.Machine.execWrFrame2 data s
  | .wrFrame3 data => Sys2Proof.Machine.execWrFrame3 data s
  | .wrRsvc data => Sys2Proof.Machine.execWrRsvc data s
  | .wrRsvd data => Sys2Proof.Machine.execWrRsvd data s
  | .wrRsve data => Sys2Proof.Machine.execWrRsve data s
  | .wrRsvf data => Sys2Proof.Machine.execWrRsvf data s

end Sys2Proof.Machine
end

