-- ==== Sys2Proof/Machine/Step.lean ====
section
/-! DEFINITION. Machine/Step.lean: one step applies the next stimulus (`00_scope.md` R9, R10). -/

namespace Sys2Proof.Machine

/-- One step: the next stimulus is decoded and applied; a word that spells no operation is refused (`30_encoding.md`
R124); where no stimulus has arrived nothing changes, since there is no other source of state change (`00_scope.md` R9;
log entry 5). -/
def step (s : State) : Host.Outcome State Fault Refusal :=
  match s.nextStimulus with
  | none => .next s
  | some (w, rest) =>
    match decode w with
    | .ok i => exec i rest
    | .error e => .refused (refusalOf e)

/-- The state whose next stimulus is an opcode-table word (log entries 4 and 13). -/
def State.withFetchWord (s : State) (nbits w : Nat) : State := s.arrive (BitVec.ofNat 16 (w % 2 ^ nbits))

end Sys2Proof.Machine
end

