-- ==== Sys2Proof/Machine/HostSide.lean ====
section
/-! DEFINITION. Machine/HostSide.lean: what the host does at the block's port, as far as the spec fixes it (`30_encoding.md`
R114, R115; `44_host_access.md` R273, R274; `45_host_environment.md` R283, R297). The host itself is outside the block
(`00_scope.md` R5); nothing here is state. -/

namespace Sys2Proof.Machine

/-- The four bytes of a frame word in the source's order: address, address-complement, command, command-complement
(`30_encoding.md` R114). -/
def frameFields (dir : AccDir) (w : FrameWord) : Byte × Byte × Byte × Byte :=
  match dir with
  | .right => (w.extractLsb' 0 8, w.extractLsb' 8 8, w.extractLsb' 16 8, w.extractLsb' 24 8)
  | .left => (w.extractLsb' 24 8, w.extractLsb' 16 8, w.extractLsb' 8 8, w.extractLsb' 0 8)

/-- The host's checksum (R115, R283): each complement byte is the bitwise complement of its partner. -/
def frameValid (dir : AccDir) (w : FrameWord) : Bool :=
  match frameFields dir w with
  | (addr, addrC, cmd, cmdC) => addr ^^^ addrC == 0xFF && cmd ^^^ cmdC == 0xFF

/-- Taking a frame (R273): look at the flags, read the four bytes, then clear the flag. R273 lets the four reads come in
any order; rising order is the model's choice (DESIGN CHOICE, log entry 15). -/
def takeFrameOps : List Instr := [.rdFlags, .rdFrame0, .rdFrame1, .rdFrame2, .rdFrame3, .wrFlags 0x01]

/-- Taking a repeat (R274). -/
def takeRepeatOps : List Instr := [.rdFlags, .wrFlags 0x02]

/-- The accesses of the boot sequence for the stored speed and status bytes (R297, `70_reset_and_hazards.md` R354): the
speed is clamped, a start is requested if the fan-running bit is set, the level is written, `STATUS` is read back. That a
stored speed out of range is clamped as a signed number is the model's choice (DESIGN CHOICE, log entry 15). -/
def bootOps (c : Config) (speed status : Byte) : List Instr :=
  (if status.getLsbD 0 then [.wrCtrl 1] else []) ++ [.wrLevel (BitVec.ofNat 8 (clampLevel c speed).val), .rdStatus]

end Sys2Proof.Machine
end

