-- ==== Sys2Proof/Machine/HostStore.lean ====
section
/-! DEFINITION. Machine/HostStore.lean: the persistent store of the host (`45_host_environment.md` R296, `20_memory.md` R89),
"addressable by small integer offset, byte-granularity read/write". It is outside the block and not reachable through its
port. It is a list of offsets and bytes in one canonical form: offsets rising, no byte listed that is the one an unlisted
offset reads as. How many offsets there are is not given; the model takes every number for one (log entry 22). -/

namespace Sys2Proof.Machine

/-- The byte of an offset that is not listed: "remainder unused (0xFF)" (R296). -/
def storeUnused : Byte := 0xFF

/-- The persistent store (R296). -/
structure Store where
  cells : List Host.Cell
deriving DecidableEq, Repr

/-- The canonical form: offsets strictly rising, no unused byte listed. -/
abbrev Store.wf (t : Store) : Prop :=
  t.cells.Pairwise (fun p q => p.1 < q.1) ∧ ∀ p ∈ t.cells, p.2 ≠ storeUnused

/-- The byte at an offset of a list of cells. -/
def readCells (k : Nat) : List Host.Cell → Byte
  | [] => storeUnused
  | (j, v) :: rest => if k = j then v else readCells k rest

/-- The cells with one offset left out. -/
def dropCell (k : Nat) : List Host.Cell → List Host.Cell
  | [] => []
  | (j, v) :: rest => if k = j then dropCell k rest else (j, v) :: dropCell k rest

/-- The cells with one more, at its place. -/
def putCell (k : Nat) (w : Byte) : List Host.Cell → List Host.Cell
  | [] => [(k, w)]
  | (j, v) :: rest => if k < j then (k, w) :: (j, v) :: rest else (j, v) :: putCell k w rest

/-- A read of one byte (R296). -/
def Store.read (t : Store) (k : Nat) : Byte := readCells k t.cells

/-- A write of one byte (R296). -/
def Store.write (t : Store) (cell : Host.Cell) : Store :=
  let others := dropCell cell.1 t.cells
  if cell.2 = storeUnused then { cells := others } else { cells := putCell cell.1 cell.2 others }

/-- The Persisted Record, three bytes (`45_host_environment.md` R281, R296). -/
structure Record where
  speed : Byte
  hours : Byte
  status : Byte
deriving DecidableEq, Repr

/-- The record as the store holds it: offset 0 is the speed, 1 the hours, 2 the status (R296). -/
def Store.record (t : Store) : Record := { speed := t.read 0, hours := t.read 1, status := t.read 2 }

/-- The factory image: speed 5, hours 1, status 1, every other offset unused (R296). -/
def Store.factory : Store := { cells := [(0, 5), (1, 1), (2, 1)] }

/-- The fields that are written to the store: those that differ, the duration only if it is dirty (R294). -/
def storeWrites (dirty : Bool) (old new : Record) : List Host.Cell :=
  (if old.speed = new.speed then [] else [(0, new.speed)])
    ++ (if !dirty || old.hours = new.hours then [] else [(1, new.hours)])
    ++ (if old.status = new.status then [] else [(2, new.status)])

/-- Compare and write (R294): the fields of a record that are to be written, written. -/
def Store.update (dirty : Bool) (new : Record) (t : Store) : Store :=
  (storeWrites dirty t.record new).foldl Store.write t

end Sys2Proof.Machine
end

