-- ==== Sys2Proof/Machine/HostPort.lean ====
section
/-! DEFINITION. Machine/HostPort.lean: the access primitives of the host register space, `MemRead` and `MemWrite`
(`20_memory.md` R82, R83). The sixteen locations are views of the state, not storage. -/

namespace Sys2Proof.Machine

/-- The byte a register shows (`10_state.md` R52). -/
def regView (b : Block) : Reg → Byte
  | .level => viewLevel b
  | .ctrl => viewCtrl b
  | .angle => viewAngle b
  | .status => viewStatus b
  | .flags => viewFlags b.flags
  | .hccnt => viewHccnt b
  | .ovfcnt => viewOvfcnt b
  | .irstat => viewIrstat b
  | .frame0 => viewFrame 0 b
  | .frame1 => viewFrame 1 b
  | .frame2 => viewFrame 2 b
  | .frame3 => viewFrame 3 b
  | .rsvc => viewReserved
  | .rsvd => viewReserved
  | .rsve => viewReserved
  | .rsvf => viewReserved

/-- `MemRead(a, 1)` (R82): it changes no state. -/
def memRead (a : RegAddr) (b : Block) : Byte := regView b (Reg.ofAddr a)

/-- `MemWrite(a, 1, v)` (R83): the mapper at 0x0, `START_REQ` at 0x1, write-1-to-clear at 0x4, nothing elsewhere. -/
def memWrite (c : Config) (a : RegAddr) (v : Byte) (b : Block) : Block :=
  match Reg.ofAddr a with
  | .level => applyLevel c v b
  | .ctrl => writeCtrl v b
  | .flags => writeFlags v b
  | .angle | .status | .hccnt | .ovfcnt | .irstat | .frame0 | .frame1 | .frame2 | .frame3 | .rsvc | .rsvd | .rsve | .rsvf => b

end Sys2Proof.Machine
end

