-- ==== Sys2Proof/Machine/Runs.lean ====
section
/-! DEFINITION. Machine/Runs.lean: an operation under any configuration, runs (`00_scope.md` R9, R10), and the order of
the stimuli of one cycle (`60_exceptions.md` R327). -/

namespace Sys2Proof.Machine

/-- One operation under a configuration: the hardware stimuli by their rules, the host accesses through the primitives of
R82 and R83. `exec` is this function at `Config.machine`. -/
def perform (c : Config) (i : Instr) (s : State) : State :=
  match i with
  | .rst => resetOp c s
  | .zc => zeroCross c s
  | .dt => delayTick s
  | .tb => s.mapBlock (timebaseTick c)
  | .iri => s.mapBlock (irEdge c false)
  | .ira => s.mapBlock (irEdge c true)
  | .rdLevel => s.returnByte (memRead Reg.level.addr s.block)
  | .rdCtrl => s.returnByte (memRead Reg.ctrl.addr s.block)
  | .rdAngle => s.returnByte (memRead Reg.angle.addr s.block)
  | .rdStatus => s.returnByte (memRead Reg.status.addr s.block)
  | .rdFlags => s.returnByte (memRead Reg.flags.addr s.block)
  | .rdHccnt => s.returnByte (memRead Reg.hccnt.addr s.block)
  | .rdOvfcnt => s.returnByte (memRead Reg.ovfcnt.addr s.block)
  | .rdIrstat => s.returnByte (memRead Reg.irstat.addr s.block)
  | .rdFrame0 => s.returnByte (memRead Reg.frame0.addr s.block)
  | .rdFrame1 => s.returnByte (memRead Reg.frame1.addr s.block)
  | .rdFrame2 => s.returnByte (memRead Reg.frame2.addr s.block)
  | .rdFrame3 => s.returnByte (memRead Reg.frame3.addr s.block)
  | .rdRsvc => s.returnByte (memRead Reg.rsvc.addr s.block)
  | .rdRsvd => s.returnByte (memRead Reg.rsvd.addr s.block)
  | .rdRsve => s.returnByte (memRead Reg.rsve.addr s.block)
  | .rdRsvf => s.returnByte (memRead Reg.rsvf.addr s.block)
  | .wrLevel data => s.mapBlock (memWrite c Reg.level.addr data)
  | .wrCtrl data => s.mapBlock (memWrite c Reg.ctrl.addr data)
  | .wrAngle data => s.mapBlock (memWrite c Reg.angle.addr data)
  | .wrStatus data => s.mapBlock (memWrite c Reg.status.addr data)
  | .wrFlags data => s.mapBlock (memWrite c Reg.flags.addr data)
  | .wrHccnt data => s.mapBlock (memWrite c Reg.hccnt.addr data)
  | .wrOvfcnt data => s.mapBlock (memWrite c Reg.ovfcnt.addr data)
  | .wrIrstat data => s.mapBlock (memWrite c Reg.irstat.addr data)
  | .wrFrame0 data => s.mapBlock (memWrite c Reg.frame0.addr data)
  | .wrFrame1 data => s.mapBlock (memWrite c Reg.frame1.addr data)
  | .wrFrame2 data => s.mapBlock (memWrite c Reg.frame2.addr data)
  | .wrFrame3 data => s.mapBlock (memWrite c Reg.frame3.addr data)
  | .wrRsvc data => s.mapBlock (memWrite c Reg.rsvc.addr data)
  | .wrRsvd data => s.mapBlock (memWrite c Reg.rsvd.addr data)
  | .wrRsve data => s.mapBlock (memWrite c Reg.rsve.addr data)
  | .wrRsvf data => s.mapBlock (memWrite c Reg.rsvf.addr data)

/-- A finite sequence of operations, applied one after another (R9). -/
def runOps (c : Config) (ops : List Instr) (s : State) : State := ops.foldl (fun t i => perform c i t) s

/-- The operation of a host access. -/
def accessOp : HostAccess → Instr
  | .rd r => r.readOp
  | .wr r data => r.writeOp data

/-- The operations of one cycle in the order of R327: `RST`, which discards the others; host access; `ZC`; `DT`; IR edge;
`TB`. -/
def cycleOps (k : Cycle) : List Instr :=
  if k.rst then [.rst]
  else
    (k.host.map accessOp).toList ++ (if k.zc then [.zc] else []) ++ (if k.dt then [.dt] else [])
      ++ (k.ir.map edgeOp).toList ++ (if k.tb then [.tb] else [])

/-- The operations that a machine is to apply after those already waiting. -/
def State.enqueue (ops : List Instr) (s : State) : State := { s with stimuli := s.stimuli ++ ops.map encode }

end Sys2Proof.Machine
end

