-- ==== Sys2Proof/Machine/HostModel.lean ====
section
/-! DEFINITION. Machine/HostModel.lean: a model of the host of `45_host_environment.md`, the software on the other side of
the register port. `00_scope.md` R5 puts it outside the block: `step` and `State` do not depend on this file, and nothing
here is state of the block. What the source leaves open of it is a field of `HostConfig` (log entries 15 and 22). -/

namespace Sys2Proof.Machine

/-- The actions that a command byte dispatches to (`45_host_environment.md` R285). -/
inductive Command where
  | increment
  | decrement
  | digit (k : Level)
  | turnOff
  | turnOn
  | hoursUp
  | hoursDown
  | cancelCountdown
  | armCountdown
deriving DecidableEq, Repr

/-- The parameters of the host. -/
structure HostConfig where
  /-- `CMD_TABLE`, a partial map from command byte to action (R284). -/
  cmdTable : List (Byte × Command)
  /-- `HOUR_TICKS`, the overflow ticks of one hour (R293). -/
  hourTicks : Nat
  /-- `FEEDBACK_HALFCYCLES`, how long the indicator stays lit (R286). -/
  feedbackHalfcycles : Nat
  /-- Whether a repeat after a frame that failed its checksum re-runs the last action; not said (R288). -/
  repeatAfterBadFrame : Bool
  /-- Whether the end of a countdown zeroes the Logical Speed; not said (R293). -/
  zeroSpeedAtTimeout : Bool
  /-- What both keys held together do; not said (R299). -/
  bothKeys : Option Command
  /-- The boot/ready signal of the indicator, one entry a half-cycle; not given (R300). -/
  bootPattern : List Bool
  /-- The blinking of the indicator while the countdown runs, one entry a half-cycle, repeated; not given (R300). -/
  countdownPattern : List Bool
  /-- The polarity of the indicator output; not given (R300). -/
  indicatorActiveLow : Bool
  /-- The write-eligibility threshold in overflow ticks (R295). -/
  eligibilityTicks : Nat := 8
  /-- The half-cycles that make a genuine press (R299). -/
  keyThreshold : Nat := 4
  /-- The ceiling of the polling delay after a press, 500 ms in half-cycles of 10 ms (R299; log entry 15). -/
  keyHoldHalfcycles : Nat := 50
deriving DecidableEq, Repr

/-- What the source says of the command table (R284). -/
def HostConfig.admissible (hc : HostConfig) : Bool :=
  decide (hc.cmdTable.lookup 0x1C = some (.digit 5)) && (hc.cmdTable.lookup 0x15).isSome

/-- The state the host keeps (R281). "Fan running" is not among it: that is `STATUS[0]`. -/
structure HostData where
  /-- Logical Speed, which may leave 0 to 9 until it is read back. -/
  speed : Byte
  /-- Countdown Hours. -/
  hours : Fin 9
  /-- The Timer Running flag. -/
  timerRunning : Bool
  /-- The countdown's tick-reload counter. -/
  reload : Nat
  /-- The persistent store. -/
  store : Store
  /-- The duration field's "dirty" flag. -/
  dirty : Bool
  /-- The persistence-write eligibility counter. -/
  eligCnt : Nat
  /-- The write-eligible flag. -/
  eligible : Bool
  /-- The unknown-command flag. -/
  unknown : Bool
  /-- The last frame failed its checksum. -/
  badFrame : Bool
  /-- The last dispatched action. -/
  last : Option Command
  /-- Half-cycles until the feedback on the indicator is turned off; 0 is none. -/
  indicator : Nat
  /-- What is left of the boot/ready signal on the indicator. -/
  bootSignal : List Bool
  /-- The half-cycles counted, which give the indicator its cadence (R300). -/
  phase : Nat
  /-- The Key Repeat Counter. -/
  keyCnt : Nat
  /-- What is left of the polling delay after a press. -/
  keyHold : Nat
  /-- A key was held at the last sample of the keys. -/
  keysHeld : Bool
  /-- `HCCNT` as last read (`44_host_access.md` R275). -/
  hcSeen : Byte
  /-- `OVFCNT` as last read (R275). -/
  ovfSeen : Byte
deriving DecidableEq, Repr

/-- A host and the block at its port. -/
structure Site where
  host : HostData
  machine : State
deriving DecidableEq, Repr

/-- A change of the host alone. -/
def Site.mapHost (f : HostData → HostData) (x : Site) : Site := { x with host := f x.host }

/-- A write at the port. -/
def Site.write (c : Config) (r : Reg) (v : Byte) (x : Site) : Site :=
  { x with machine := perform c (r.writeOp v) x.machine }

/-- A read at the port; the byte goes to the continuation. -/
def Site.read (c : Config) (r : Reg) (x : Site) (k : Byte → Site → Site) : Site :=
  k (memRead r.addr x.machine.block) { x with machine := perform c r.readOp x.machine }

/-- A number of hours clamped into 0 to 8 (R292, R297). -/
def clampHours (n : Nat) : Fin 9 := ⟨min 8 n, by omega⟩

/-- Cancelling the countdown (R291). -/
def HostData.cancel (h : HostData) : HostData :=
  { h with timerRunning := false, hours := clampHours (h.store.read 1).toNat }

/-- Starting the countdown at a number of hours; the decrement counter is reset (R290). -/
def HostData.armAt (hc : HostConfig) (hours : Fin 9) (h : HostData) : HostData :=
  { h with timerRunning := true, hours := hours, reload := hc.hourTicks }

/-- The persisted hours, 1 where that was 0 (R290). -/
def HostData.storedHours (h : HostData) : Fin 9 := if h.store.read 1 = 0 then 1 else clampHours (h.store.read 1).toNat

/-- Arming at the previous duration: only if the fan runs and the countdown is not armed (R290). -/
def HostData.arm (hc : HostConfig) (running : Bool) (h : HostData) : HostData :=
  if running && !h.timerRunning then h.armAt hc h.storedHours else h

/-- Adjusting the hours: only while the fan runs; 0 cancels, else the countdown is (re)armed (R292). -/
def HostData.adjust (hc : HostConfig) (running : Bool) (hours : Fin 9) (h : HostData) : HostData :=
  if running then
    let h' := { h with hours := hours, dirty := true }
    if hours = 0 then h'.cancel else h'.armAt hc hours
  else h

/-- Applying the speed (R286): request, write, read back; the side effects of R289. -/
def Site.applySpeed (c : Config) (start : Bool) (x : Site) : Site :=
  let x := if start then x.write c .ctrl 1 else x
  (x.write c .level x.host.speed).read c .level fun level x =>
    x.read c .status fun status x =>
      x.mapHost fun h =>
        let h := { h with speed := level, eligCnt := 0 }
        if status.getLsbD 0 then h else h.cancel

/-- Setting the Logical Speed and applying it. -/
def Site.setSpeed (c : Config) (start : Bool) (speed : Byte) (x : Site) : Site :=
  (x.mapHost fun h => { h with speed := speed }).applySpeed c start

/-- A change of the countdown that depends on the fan running, followed by the re-application of the speed. -/
def Site.changeTimer (c : Config) (f : Bool → HostData → HostData) (x : Site) : Site :=
  x.read c .status fun status x => (x.mapHost (f (status.getLsbD 0))).applySpeed c false

/-- The action of a command (R285); the commands that may start the fan are those of R286. -/
def Site.act (c : Config) (hc : HostConfig) (cmd : Command) (x : Site) : Site :=
  match cmd with
  | .increment => x.setSpeed c true (x.host.speed + 1)
  | .decrement => x.setSpeed c true (x.host.speed - 1)
  | .digit k => x.setSpeed c true (BitVec.ofNat 8 k.val)
  | .turnOff => (x.setSpeed c false 0).mapHost HostData.cancel
  | .turnOn => x.setSpeed c true (if x.host.speed = 0 then 1 else x.host.speed)
  | .hoursUp => x.changeTimer c fun running h => h.adjust hc running (clampHours (h.hours.val + 1))
  | .hoursDown => x.changeTimer c fun running h => h.adjust hc running (clampHours (h.hours.val - 1))
  | .cancelCountdown => x.changeTimer c fun _ h => h.cancel
  | .armCountdown => x.changeTimer c fun running h => h.arm hc running

/-- Dispatching a recognised command: the unknown-command flag is cleared at the start (R287), then the action and the
feedback indicator (R285, R286). -/
def Site.dispatch (c : Config) (hc : HostConfig) (cmd : Command) (x : Site) : Site :=
  ((x.mapHost fun h => { h with unknown := false }).act c hc cmd).mapHost fun h => { h with last := some cmd, indicator := hc.feedbackHalfcycles }

/-- The four bytes of a frame, judged and dispatched (R282, R283, R287): a bad checksum and an unknown
command are silent. -/
def Site.interpret (c : Config) (hc : HostConfig) (w : FrameWord) (x : Site) : Site :=
  let x := x.mapHost fun h => { h with badFrame := !frameValid c.accDir w }
  if frameValid c.accDir w then
    match hc.cmdTable.lookup (frameFields c.accDir w).2.2.1 with
    | some cmd => x.dispatch c hc cmd
    | none => x.mapHost fun h => { h with unknown := true }
  else x

/-- Taking a frame (`44_host_access.md` R273). R273 lets the four reads come in any order; rising order is the model's choice
(DESIGN CHOICE, log entry 15). -/
def Site.takeFrame (c : Config) (hc : HostConfig) (x : Site) : Site :=
  x.read c .flags fun flags x =>
    if flags.getLsbD 0 then
      x.read c .frame0 fun b0 x => x.read c .frame1 fun b1 x => x.read c .frame2 fun b2 x =>
        x.read c .frame3 fun b3 x => (x.write c .flags 0x01).interpret c hc (b3 ++ b2 ++ b1 ++ b0)
    else x

/-- Taking a repeat (`44_host_access.md` R274, R288): the last dispatched action again. -/
def Site.takeRepeat (c : Config) (hc : HostConfig) (x : Site) : Site :=
  x.read c .flags fun flags x =>
    if flags.getLsbD 1 then
      let y :=
        match x.host.last with
        | some cmd => if x.host.badFrame && !hc.repeatAfterBadFrame then x else x.dispatch c hc cmd
        | none => x
      y.write c .flags 0x02
    else x

/-- The end of the countdown: the fan is turned off and the hours read 0 (R293). -/
def Site.timeOut (c : Config) (hc : HostConfig) (x : Site) : Site :=
  let kept := x.host.speed
  ((x.mapHost fun h => { h with timerRunning := false }).setSpeed c false 0).mapHost fun h =>
    { h with hours := 0, speed := if hc.zeroSpeedAtTimeout then 0 else kept }

/-- One overflow tick in the countdown (R293): the tick-reload counter goes down; at zero it is reloaded and an hour is
taken off; at zero hours the countdown ends. -/
def Site.countdownTick (c : Config) (hc : HostConfig) (x : Site) : Site :=
  if x.host.timerRunning then
    if 1 < x.host.reload then x.mapHost fun h => { h with reload := h.reload - 1 }
    else
      let x := x.mapHost fun h => { h with reload := hc.hourTicks, hours := clampHours (h.hours.val - 1) }
      if x.host.hours = 0 then x.timeOut c hc else x
  else x

/-- One overflow tick in the eligibility counter (R295). -/
def HostData.eligibilityTick (hc : HostConfig) (h : HostData) : HostData :=
  if hc.eligibilityTicks ≤ h.eligCnt + 1 then { h with eligCnt := 0, eligible := true }
  else { h with eligCnt := h.eligCnt + 1 }

/-- The record that the in-memory values make up; bit 0 of the status is `STATUS[0]`, bit 1 the Timer Running flag (R294,
R296). The spec names no other bit of the status byte: that bits 7:2 are compared too, and written as 0, is the model's
choice (DESIGN CHOICE, log entry 22). -/
def HostData.current (running : Bool) (h : HostData) : Record :=
  { speed := h.speed, hours := BitVec.ofNat 8 h.hours.val, status := bitAt 1 h.timerRunning ||| bitAt 0 running }

/-- Compare and write, once eligible (R294, R295). The "dirty" flag is cleared at every comparison, whether or not the hours
differed and were written, which is the model's choice (DESIGN CHOICE, log entry 15). -/
def Site.persist (c : Config) (x : Site) : Site :=
  if x.host.eligible then
    x.read c .status fun status x =>
      x.mapHost fun h =>
        { h with
          store := h.store.update h.dirty (h.current (status.getLsbD 0))
          dirty := false
          eligible := false }
  else x

/-- One overflow tick at the host: the eligibility counter, the store, and then the countdown, so that a speed changed by
the end of a countdown waits for the whole threshold (R293 to R295). -/
def Site.overflow (c : Config) (hc : HostConfig) (x : Site) : Site :=
  ((x.mapHost (HostData.eligibilityTick hc)).persist c).countdownTick c hc

/-- The command of the keys held (R299). R292 speaks of an adjustment of the hours "via remote or key", but R299 gives the keys
the speed delta only and no rule names a key action for the hours: that neither key alone adjusts the hours is the model's
choice (DESIGN CHOICE, log entry 22); `bothKeys` may name a command that does. -/
def keyCommand (hc : HostConfig) (up down : Bool) : Option Command :=
  if up && down then hc.bothKeys else if up then some .increment else if down then some .decrement else none

/-- The counter and the delay end the instant both controls are released (R298, R299), whether or not a half-cycle has
passed. -/
def Site.sampleKeys (up down : Bool) (x : Site) : Site :=
  if up || down then x else x.mapHost fun h => { h with keyCnt := 0, keyHold := 0, keysHeld := false }

/-- One half-cycle of held keys (R298, R299): the counter, a press at the threshold, and again whenever the polling delay
has run out. R299 applies the delta as in R285 and does not say whether a press lights the feedback indicator, which R286
does "on any recognized command": that it does not, and that it is not the "last dispatched action" of R288, is the model's
choice (DESIGN CHOICE, log entry 22). -/
def Site.keys (c : Config) (hc : HostConfig) (up down : Bool) (x : Site) : Site :=
  if x.host.keysHeld then
    let x := x.mapHost fun h => { h with keyCnt := min 255 (h.keyCnt + 1) }
    if 1 < x.host.keyHold then x.mapHost fun h => { h with keyHold := h.keyHold - 1 }
    else if hc.keyThreshold ≤ x.host.keyCnt then
      let x := x.mapHost fun h => { h with keyHold := hc.keyHoldHalfcycles }
      match keyCommand hc up down with
      | some cmd => x.act c hc cmd
      | none => x
    else x
  else x

/-- One half-cycle at the host: the keys and the indicator (R298 to R300). -/
def Site.halfCycle (c : Config) (hc : HostConfig) (up down : Bool) (x : Site) : Site :=
  (x.keys c hc up down).mapHost fun h =>
    { h with indicator := h.indicator - 1, bootSignal := h.bootSignal.tail, phase := h.phase + 1 }

/-- Whether the indicator is lit (R300): the boot/ready signal while it lasts, then the feedback of a command or the
blinking of the countdown. That the three come in this order is the model's choice (DESIGN CHOICE, log entry 15). -/
def HostData.lit (hc : HostConfig) (h : HostData) : Bool :=
  match h.bootSignal with
  | on :: _ => on
  | [] =>
    decide (h.indicator ≠ 0)
      || (h.timerRunning && (hc.countdownPattern[h.phase % hc.countdownPattern.length]?).getD false)

/-- The level of the indicator output (R300). -/
def HostData.indicatorPin (hc : HostConfig) (h : HostData) : Bool :=
  if hc.indicatorActiveLow then !h.lit hc else h.lit hc

/-- A step of the host a number of times. -/
def Site.times (f : Site → Site) : Nat → Site → Site
  | 0, x => x
  | n + 1, x => Site.times f n (f x)

/-- One round of the foreground loop (R280): the sample of the keys; the overflow ticks and the half-cycles since the last
round by the differences of R275; then frames and repeats, so that what a command starts (the feedback, the countdown, the
eligibility count) is charged with no tick that came before it.
A half-cycle counts for the keys if a key was held at the sample before it and is held at the sample after it: what the
keys did between two samples is not seen. This and the order of the round are the model's choice (DESIGN CHOICE, log
entry 15). -/
def Site.serve (c : Config) (hc : HostConfig) (up down : Bool) (x : Site) : Site :=
  let x := (x.sampleKeys up down).read c .ovfcnt fun v x =>
    Site.times (Site.overflow c hc) (v - x.host.ovfSeen).toNat (x.mapHost fun h => { h with ovfSeen := v })
  let x := x.read c .hccnt fun v x =>
    Site.times (Site.halfCycle c hc up down) (v - x.host.hcSeen).toNat (x.mapHost fun h => { h with hcSeen := v })
  ((x.mapHost fun h => { h with keysHeld := up || down }).takeFrame c hc).takeRepeat c hc

/-- Whether a key is held, from the level of its input: the two keys are active-low (R298). -/
def keyHeld (pin : Bool) : Bool := !pin

/-- One round of the foreground loop, from the levels of the two key inputs, increase and decrease (R298). -/
def Site.servePins (c : Config) (hc : HostConfig) (increasePin decreasePin : Bool) (x : Site) : Site :=
  x.serve c hc (keyHeld increasePin) (keyHeld decreasePin)

/-- The host before its boot sequence: the record as read and clamped, everything else clear. The source gives the host's
other variables (R281) no value at boot: that the countdown is unarmed with its tick-reload counter 0, the dirty, eligible
and unknown-command flags are clear, no bad frame and no last action are remembered, and the counters of eligibility, keys
and indicator are 0 is the model's choice (DESIGN CHOICE, log entry 22). The last readings of `HCCNT` and `OVFCNT` are their
reset value (`10_state.md` R57).
R297 says "clamp" and not how a byte out of range is read: the speed as a signed number, as `WR LEVEL` reads it, so that
0x80 to 0xFF give 0, and the hours as an unsigned one, so that 0xFF gives 8 (DESIGN CHOICE, log entry 15). -/
def HostData.ofStore (c : Config) (t : Store) : HostData :=
  { speed := BitVec.ofNat 8 (clampLevel c t.record.speed).val, hours := clampHours t.record.hours.toNat,
    timerRunning := false, reload := 0, store := t, dirty := false, eligCnt := 0, eligible := false, unknown := false,
    badFrame := false, last := none, indicator := 0, bootSignal := [], phase := 0, keyCnt := 0, keyHold := 0,
    keysHeld := false, hcSeen := 0, ovfSeen := 0 }

/-- The boot sequence (R297, `70_reset_and_hazards.md` R354), at the reset state; the boot/ready signal starts (R300).
Where the timer-running bit is set and the stored hours are 0, R297 says to arm "with the stored hours" and R290 arms at 1
where the hours were 0: that the countdown is armed at 1 hour then is the model's choice (DESIGN CHOICE, log entry 22). -/
def Site.boot (c : Config) (hc : HostConfig) (t : Store) : Site :=
  let x : Site := { host := HostData.ofStore c t, machine := State.resetOf c }
  (x.applySpeed c (t.record.status.getLsbD 0)).read c .status fun status x =>
    x.mapHost fun h =>
      let h := { h with bootSignal := hc.bootPattern }
      if t.record.status.getLsbD 1 then h.arm hc (status.getLsbD 0) else h

/-- A loss of power and the boot after it: the store "retains value across power loss" (R296), nothing else does. -/
def Site.powerCycle (c : Config) (hc : HostConfig) (x : Site) : Site := Site.boot c hc x.host.store

end Sys2Proof.Machine
end

