-- ==== Sys2Proof/Machine/Pins.lean ====
section
/-! DEFINITION. Machine/Pins.lean: the pins of `00_scope.md` R8, between levels on wires and the logical values and stimuli
of the model. The polarities are the parameters of R11. -/

namespace Sys2Proof.Machine

/-- The level of the pin `gate_n`: `NOT GATE` when `GATE_ACTIVE_LOW` holds (R8). -/
def gatePin (c : Config) (b : Block) : Bool := if c.gateActiveLow then !b.gate else b.gate

/-- The logical level `ir` of a level of the pin `ir_in`: inverted when `IR_ACTIVE_LOW` holds (R8). -/
def irOfPin (c : Config) (pin : Bool) : Bool := if c.irActiveLow then !pin else pin

/-- The stimulus of a change of the pin `ir_in` after the first edge of a run: an edge to the new logical level (R9); none
where it does not change. -/
def irStimulus (c : Config) (before after : Bool) : Option Instr :=
  if before = after then none else some (edgeOp (irOfPin c after))

/-- The stimulus of the first change of the pin `ir_in` after reset: an `IRA` whatever its direction
(`70_reset_and_hazards.md` R352, `43_ir_decoder.md` R225). -/
def firstIrStimulus (before after : Bool) : Option Instr := if before = after then none else some .ira

/-- The stimuli of the levels that the pin `ir_in` takes one after another; `first` says that no edge has come yet. -/
def irStimuli (c : Config) (first : Bool) : Bool → List Bool → List Instr
  | _, [] => []
  | before, after :: later =>
    (if first then firstIrStimulus before after else irStimulus c before after).toList
      ++ irStimuli c (first && decide (before = after)) after later

/-- The stimuli of the pin `ir_in` from reset: its level at reset, and the levels it takes (R352). Where a burst is present
at reset, the edge after the first is the edge of its own direction, which is the model's choice (DESIGN CHOICE, log
entry 21). -/
def irStimuliFromReset (c : Config) (atReset : Bool) (later : List Bool) : List Instr := irStimuli c true atReset later

/-- The stimulus of a change of the pin `zc_in`: `ZC` at the transition that `ZC_POL` selects, and no stimulus at the
other transition of the pair (`40_firing_engine.md` R150, conflict C5). -/
def zcStimulus (c : Config) (before after : Bool) : Option Instr :=
  match c.zcPol with
  | .rising => if !before && after then some .zc else none
  | .falling => if before && !after then some .zc else none

end Sys2Proof.Machine
end

