-- ==== Sys2Proof/Machine/Pseudo.lean ====
section
/-! DEFINITION. Machine/Pseudo.lean: the pseudo-operations of `30_encoding.md` R128 and the wire format of R111 and R113 as
sequences of operations. An expansion has no semantics of its own. -/

namespace Sys2Proof.Machine

/-- `TBN n`, and `GAP n`. -/
def tbN (n : Nat) : List Instr := List.replicate n .tb

/-- `DTN n`. -/
def dtN (n : Nat) : List Instr := List.replicate n .dt

/-- `ZCN n`. -/
def zcN (n : Nat) : List Instr := List.replicate n .zc

/-- `BURST n`. -/
def burst (n : Nat) : List Instr := .ira :: (tbN n ++ [.iri])

/-- A burst of `mark` ticks and the pause of `pause` ticks after it. -/
def burstGap (mark pause : Nat) : List Instr := burst mark ++ tbN pause

/-- `NECLEAD`. -/
def necLead : List Instr := burstGap 1125 562

/-- `NECBIT0` and `NECBIT1`. -/
def necBit (bit : Bool) : List Instr := if bit then burstGap 70 211 else burstGap 70 70

/-- `NECSTOP`. -/
def necStop : List Instr := burst 70

/-- `NECFRAME w`: bit 0 of `w` first. -/
def necFrame (w : FrameWord) : List Instr :=
  necLead ++ (List.range 32).flatMap (fun k => necBit (w.getLsbD k)) ++ necStop

/-- `NECRPT`. -/
def necRpt : List Instr := burstGap 1125 281 ++ burst 70

/-- `START n`. -/
def start (n : Byte) : List Instr := [.wrCtrl 1, .wrLevel n]

/-- `ACK m`. -/
def ack (m : Byte) : List Instr := [.wrFlags m]

/-- `HALFCYCLE`. -/
def halfCycle : List Instr := .zc :: dtN 256

/-- A full frame on the wire with any timing (R111): the leading burst and pause, a mark and a pause per bit, and the
`IRA` that ends the last pause (R116). -/
def wireFrame (lead gap : Nat) (bits : List (Nat × Nat)) : List Instr :=
  burstGap lead gap ++ bits.flatMap (fun p => burstGap p.1 p.2) ++ [.ira]

/-- A repeat frame on the wire with any timing (R113). -/
def wireRepeat (lead gap pulse : Nat) : List Instr := burstGap lead gap ++ burst pulse

end Sys2Proof.Machine
end

