-- ==== Sys2Proof/Safety.lean ====
section
/-! DEFINITION. Safety.lean: what counts as a good state and a safe run, in the terms the statements use. -/

namespace Sys2Proof.Machine

/-- The invariants (I1) to (I10) of `10_state.md` R56 ((I6) holds by the type of `irState`), and one more, which R56 does
not list and (I10) needs to be kept by every operation from every state: no bit has been taken before HighBit is entered
(log entry 9). -/
structure Block.Inv (c : Config) (b : Block) : Prop where
  /-- (I1): at most 9, for `N_LEVELS` = 10. -/
  level_lt : b.level.val < c.nLevels
  /-- (I2). -/
  kicking : b.kickCnt ≠ 0 → b.run = true ∧ 1 ≤ b.level.val ∧ b.phaseAngle = lutAt c c.fullIdx
  /-- (I3). -/
  settled : b.kickCnt = 0 → b.phaseAngle = lutAt c b.level
  /-- (I4). -/
  running : b.run = true → 1 ≤ b.level.val
  /-- (I5): at most 31, for `FRAME_BITS` = 32. -/
  bitCnt_lt : b.bitCnt.toNat < c.frameBits
  /-- (I7). -/
  gate_armed : b.gate = true → b.dlyArmed = true
  /-- (I8). -/
  irIdle_le : b.irIdle.toNat ≤ c.irIdleTicks.toNat
  /-- (I9). -/
  kickCnt_le : b.kickCnt.toNat ≤ c.kickHalfcycles.toNat
  /-- (I10). -/
  idle_bitCnt : b.irState = .idle → b.bitCnt = 0
  /-- The strengthening of log entry 9. -/
  lead_bitCnt : b.irState = .mark ∨ b.irState = .space ∨ b.irState = .repeatFrame → b.bitCnt = 0

/-- The trace `1, 0, 1, 0, ...` of a given length. -/
def alternatingTrace : Nat → List Bool
  | 0 => []
  | n + 1 => alternatingTrace n ++ [decide (n % 2 = 0)]

/-- The gate trace is a list of transitions (`00_scope.md` R15): it alternates from a first 1, and `GATE` is its last
value, 0 where it is empty. -/
def State.TraceInv (s : State) : Prop :=
  s.gateTrace = alternatingTrace s.gateTrace.length ∧ s.block.gate = decide (s.gateTrace.length % 2 = 1)

/-- The firing engine's half of the block: the elements that no decoder rule reads or writes (`43_ir_decoder.md` R229),
and the flag `ZC_F`. -/
structure FiringHalf where
  phaseAngle : Byte
  dlyCnt : Byte
  dlyArmed : Bool
  gate : Bool
  run : Bool
  level : Level
  startReq : Bool
  kickCnt : Byte
  hcCnt : Byte
  zcF : Bool
deriving DecidableEq, Repr

/-- The decoder's and the timebase's half of the block: all the other elements. -/
structure DecoderHalf where
  irState : IrState
  tbCnt : Ticks
  ovfCnt : Byte
  irLevel : Bool
  irLast : Ticks
  acc : FrameWord
  bitCnt : BitVec 6
  frame : FrameWord
  irIdle : BitVec 2
  frameRdy : Bool
  rptPend : Bool
  ovfF : Bool
deriving DecidableEq, Repr

/-- See `FiringHalf`. -/
def Block.firingHalf (b : Block) : FiringHalf :=
  { phaseAngle := b.phaseAngle, dlyCnt := b.dlyCnt, dlyArmed := b.dlyArmed, gate := b.gate, run := b.run,
    level := b.level, startReq := b.startReq, kickCnt := b.kickCnt, hcCnt := b.hcCnt, zcF := b.flags.zcF }

/-- See `DecoderHalf`. -/
def Block.decoderHalf (b : Block) : DecoderHalf :=
  { irState := b.irState, tbCnt := b.tbCnt, ovfCnt := b.ovfCnt, irLevel := b.irLevel, irLast := b.irLast, acc := b.acc,
    bitCnt := b.bitCnt, frame := b.frame, irIdle := b.irIdle, frameRdy := b.flags.frameRdy,
    rptPend := b.flags.rptPend, ovfF := b.flags.ovfF }

/-- A stimulus that the environment can present in a state (`43_ir_decoder.md` R206): a premise, not a test. -/
def State.admits (s : State) : Instr → Bool
  | .ira => !s.block.irLevel
  | .iri => s.block.irLevel
  | _ => true

/-- The level of `ir` that goes with a decoder state (`43_ir_decoder.md` R218): a burst is being measured in Mark, HighBit
and Repeat, a pause in Space and LowBit. -/
def Block.LevelInv (b : Block) : Prop :=
  (b.irState = .mark ∨ b.irState = .highBit ∨ b.irState = .repeatFrame → b.irLevel = true)
    ∧ (b.irState = .space ∨ b.irState = .lowBit → b.irLevel = false)

/-- A safe step: it neither faults nor refuses. -/
def SafeStep (s : State) : Prop := ∃ t, step s = .next t

end Sys2Proof.Machine
end

