-- ==== Sys2Proof/Certificates/Slice0/Obligations.lean ====
section
/-! DEFINITION. Certificates/Slice0/Obligations.lean: the statements for the provers, from the numbered rules of spec/. -/

open Sys2Proof Sys2Proof.Machine

/-! ### Encodings -/

/-- `30_encoding.md` R119, R120, R123: every operation's word decodes to it, with every data byte. -/
def Obligations.DecodeOfEncode : Prop :=
  ∀ i : Instr, i.wellFormed = true → decode (encode i) = .ok i

/-- R123: the decoder drops no bit of a word it accepts. -/
def Obligations.EncodeOfDecode : Prop :=
  ∀ (w : OpWord) (i : Instr), decode w = .ok i → encode i = w

/-- R123, R124: exactly which words are refused, and why; `w / 4096` is the class. -/
def Obligations.DecodeRefusesReservedWords : Prop :=
  ∀ w : OpWord,
    (decode w = .error .reservedClass ↔
      (5 ≤ w.toNat / 4096 ∧ w.toNat / 4096 ≤ 7) ∨ 10 ≤ w.toNat / 4096)
    ∧ (decode w = .error .mustBeZero ↔
      (w.toNat / 4096 ≤ 3 ∧ w.toNat % 4096 ≠ 0)
        ∨ (w.toNat / 4096 = 4 ∧ 2 ≤ w.toNat % 4096)
        ∨ (w.toNat / 4096 = 8 ∧ w.toNat % 256 ≠ 0))

/-- R129: the worked encodings, and the three words it refuses. -/
def Obligations.WorkedEncodings : Prop :=
  decode 0x9005 = .ok (.wrLevel 5) ∧ assemble (.wr (.name .level) (-1)) = some (.wrLevel 0xFF)
    ∧ decode 0x90FF = .ok (.wrLevel 0xFF) ∧ decode 0x9101 = .ok (.wrCtrl 1) ∧ decode 0x9401 = .ok (.wrFlags 0x01)
    ∧ decode 0x8400 = .ok .rdFlags ∧ decode 0x8A00 = .ok .rdFrame2 ∧ decode 0x1000 = .ok .zc ∧ decode 0x4001 = .ok .ira
    ∧ decode 0x8401 = .error .mustBeZero ∧ decode 0x1001 = .error .mustBeZero ∧ decode 0x5000 = .error .reservedClass
    ∧ encode (.wrLevel 5) = 0x9005 ∧ encode (.wrLevel 0xFF) = 0x90FF ∧ encode (.wrCtrl 1) = 0x9101
    ∧ encode (.wrFlags 0x01) = 0x9401 ∧ encode .rdFlags = 0x8400 ∧ encode .rdFrame2 = 0x8A00 ∧ encode .zc = 0x1000
    ∧ encode .ira = 0x4001

/-- R126, R127: a register's number spells what its name spells, and a negative `imm` is its two's-complement byte. -/
def Obligations.AssembledOperands : Prop :=
  ∀ (r : Reg) (imm : Int), -128 ≤ imm → imm ≤ 255 →
    assemble (.wr (.name r) imm) = some (r.writeOp (BitVec.ofNat 8 (if imm < 0 then imm + 256 else imm).toNat))
      ∧ assemble (.wr (.number r.addr.toNat) imm) = assemble (.wr (.name r) imm)
      ∧ assemble (.rd (.number r.addr.toNat)) = some r.readOp

/-! ### Steps -/

/-- `00_scope.md` R9, R10: a step applies the next stimulus and no other. -/
def Obligations.StepRunsNextStimulus : Prop :=
  ∀ (s : State) (w : OpWord) (rest : List OpWord) (i : Instr), s.stimuli = w :: rest → decode w = .ok i →
    step s = exec i { s with stimuli := rest }

/-- `30_encoding.md` R124: a word that spells no operation is refused. -/
def Obligations.StepRefusesReservedWords : Prop :=
  ∀ (s : State) (w : OpWord) (rest : List OpWord), s.stimuli = w :: rest →
    (decode w = .error .reservedClass → step s = .refused .reservedClass)
      ∧ (decode w = .error .mustBeZero → step s = .refused .mustBeZero)

/-- The model's choice (log entries 4, 5 and 13; R9 says that there is no other source of state change): an arriving word
is run next, and a machine for which no stimulus has arrived stays as it is. -/
def Obligations.ArrivingWordRunsNext : Prop :=
  (∀ (s : State) (i : Instr), step (s.withFetchWord 16 (encode i).toNat) = exec i s)
    ∧ ∀ s : State, s.stimuli = [] → step s = .next s

/-- `60_exceptions.md` R332: every operation is total, from every state, and no step faults. -/
def Obligations.NoOperationSticks : Prop :=
  (∀ (i : Instr) (s : State), ∃ t, exec i s = .next t ∧ t.stimuli = s.stimuli)
    ∧ ∀ (s : State) (f : Fault), step s ≠ .fault f

/-- `20_memory.md` R82, R83: the meaning of every operation is the operation through `MemRead` and `MemWrite`. -/
def Obligations.ExecIsPerform : Prop :=
  ∀ (i : Instr) (s : State), exec i s = .next (perform Config.machine i s)

/-! ### Reset -/

/-- `70_reset_and_hazards.md` R350, R351: what `RST` does, whatever the state before; in the reset state, where a run
begins with an empty gate trace, it changes nothing. -/
def Obligations.ResetOperation : Prop :=
  State.reset.gateTrace = [] ∧ exec .rst State.reset = .next State.reset ∧ ∀ s : State, exec .rst s = .next
    { block :=
        { irState := .idle, phaseAngle := lutAt Config.machine 0, dlyCnt := 0, dlyArmed := false, gate := false,
          run := false, level := 0, startReq := false, kickCnt := 0, tbCnt := 0, hcCnt := 0, ovfCnt := 0,
          irLevel := false, irLast := 0, acc := 0, bitCnt := 0, frame := 0, irIdle := 0,
          flags := { frameRdy := false, rptPend := false, ovfF := false, zcF := false } }
      gateTrace := if s.block.gate then s.gateTrace ++ [false] else s.gateTrace
      readTrace := s.readTrace
      stimuli := s.stimuli }

/-! ### Invariants -/

/-- `10_state.md` R56: the invariants hold in the reset state, for every admissible configuration; the gate trace is well
formed there. The invariants are strengthened as log entry 9 says; at values of `N_LEVELS` and `FRAME_BITS` other than R11's,
(I1) and (I5) are those of log entry 2, the model's choice. -/
def Obligations.InvariantsAtReset : Prop :=
  Block.Inv Config.machine State.reset.block ∧ State.reset.TraceInv ∧ State.reset.block.LevelInv
    ∧ ∀ c : Config, c.admissible = true → Block.Inv c (State.resetOf c).block

/-- R56: every step keeps the invariants, from every state that meets them (strengthened as log entry 9 says). -/
def Obligations.StepKeepsInvariants : Prop :=
  ∀ s t : State, Block.Inv Config.machine s.block → step s = .next t → Block.Inv Config.machine t.block

/-- R56 for every admissible configuration: every operation keeps the invariants (strengthened as log entry 9 says; at values
of `N_LEVELS` and `FRAME_BITS` other than R11's, (I1) and (I5) are those of log entry 2, the model's choice). -/
def Obligations.OperationKeepsInvariants : Prop :=
  ∀ (c : Config) (i : Instr) (s : State), c.admissible = true → Block.Inv c s.block →
    Block.Inv c (perform c i s).block

/-- `00_scope.md` R15: every step keeps the gate trace a list of transitions that ends in `GATE`. -/
def Obligations.StepKeepsGateTrace : Prop :=
  ∀ s t : State, s.TraceInv → step s = .next t → t.TraceInv

/-- `43_ir_decoder.md` R206, R218: where edges alternate, the level of `ir` goes with the decoder's state. -/
def Obligations.AlternatingEdgesKeepLevel : Prop :=
  ∀ (c : Config) (i : Instr) (s : State), s.block.LevelInv → s.admits i = true → (perform c i s).block.LevelInv

/-- R206: in a run from reset whose edges alternate, each edge finds the level of `ir` it needs. -/
def Obligations.AdmittedInRunFromReset : Prop :=
  ∀ (c : Config) (done : List Instr) (i : Instr) (todo : List Instr), isRun (done ++ i :: todo) = true →
    (runOps c done (State.resetOf c)).admits i = true

/-- `41_speed_mapper.md` R171, `00_scope.md` R11: the machine's configuration is admissible; its table does not increase
with the level. -/
def Obligations.MachineTableDecreases : Prop :=
  Config.machine.admissible = true
    ∧ ∀ m n : Level, m ≤ n → (lutAt Config.machine n).toNat ≤ (lutAt Config.machine m).toNat

/-! ### Firing engine -/

/-- `40_firing_engine.md` R150, R151, R152 and `41_speed_mapper.md` R176: everything `ZC` does. -/
def Obligations.ZeroCrossResult : Prop :=
  ∀ s : State, exec .zc s = .next
    { s with
      block :=
        { s.block with
          hcCnt := s.block.hcCnt + 1
          flags := { s.block.flags with zcF := true }
          dlyCnt := s.block.phaseAngle
          dlyArmed := true
          gate := s.block.gate || (s.block.run && decide (s.block.phaseAngle.toNat ≤ (lutAt Config.machine 9).toNat))
          kickCnt := if s.block.kickCnt = 0 then 0 else s.block.kickCnt - 1
          phaseAngle := if s.block.kickCnt = 1 then lutAt Config.machine s.block.level else s.block.phaseAngle }
      gateTrace :=
        if s.block.gate = false ∧ s.block.run = true ∧ s.block.phaseAngle.toNat ≤ (lutAt Config.machine 9).toNat
        then s.gateTrace ++ [true] else s.gateTrace }

/-- R153, R154: everything `DT` does: idle, a tick, or the expiry. -/
def Obligations.DelayTickResult : Prop :=
  ∀ s : State,
    (s.block.dlyArmed = false → exec .dt s = .next s)
    ∧ (s.block.dlyArmed = true → s.block.dlyCnt ≠ 0 →
        exec .dt s = .next { s with block := { s.block with dlyCnt := s.block.dlyCnt - 1 } })
    ∧ (s.block.dlyArmed = true → s.block.dlyCnt = 0 →
        exec .dt s = .next
          { s with
            block := { s.block with dlyArmed := false, gate := false }
            gateTrace := s.gateTrace ++
              (if s.block.gate then [false] else if s.block.run then [true, false] else []) })

/-- R156: the expiry is the (A+1)-th `DT` after the `ZC` that loaded A, whatever else happens between but a further `ZC`
or a reset; until then the timer has counted down by the number of `DT`. -/
def Obligations.ExpiryAfterAnglePlusOneTicks : Prop :=
  ∀ (c : Config) (s : State) (ops : List Instr), .zc ∉ ops → .rst ∉ ops →
    (runOps c (.zc :: ops) s).block.dlyArmed = decide (ops.count .dt ≤ s.block.phaseAngle.toNat)
      ∧ (runOps c (.zc :: ops) s).block.dlyCnt.toNat = s.block.phaseAngle.toNat - ops.count .dt

/-- R158: from a `ZC` up to the next one the gate trace gains at most one 1. -/
def Obligations.OnePulsePerHalfCycle : Prop :=
  ∀ (c : Config) (s : State) (ops : List Instr), .zc ∉ ops →
    ∃ gained : List Bool,
      (runOps c (.zc :: ops) s).gateTrace = s.gateTrace ++ gained ∧ gained.count true ≤ 1

/-- R160, `10_state.md` R38: while the fan is not running no operation drives the gate to 1. -/
def Obligations.GateNotDrivenWhileStopped : Prop :=
  ∀ (i : Instr) (s : State), s.block.run = false →
    ∃ t, exec i s = .next t
      ∧ (t.gateTrace = s.gateTrace ∨ t.gateTrace = s.gateTrace ++ [false])
      ∧ (t.block.gate = true → s.block.gate = true)

/-- `70_reset_and_hazards.md` R366, R160: a stop during forced conduction leaves the gate as it is, and the expiry of the
current half-cycle releases it. -/
def Obligations.StopReleasesGateAtExpiry : Prop :=
  ∀ (c : Config) (s : State) (d : Byte), 128 ≤ d.toNat ∨ d = 0 → s.block.gate = true → s.block.dlyArmed = true →
    (perform c (.wrLevel d) s).block.gate = true
      ∧ ∀ n : Nat,
          (runOps c (.wrLevel d :: List.replicate n .dt) s).block.gate = decide (n ≤ s.block.dlyCnt.toNat)

/-! ### Mapper and kick-start -/

/-- `41_speed_mapper.md` R172: the written byte as a signed number, clamped to 0 to 9. -/
def Obligations.WrittenLevelIsClamped : Prop :=
  ∀ (d : Byte) (s : State), ∃ t, exec (.wrLevel d) s = .next t
    ∧ t.block.level.val = if 0x80 ≤ d.toNat then 0 else if 10 ≤ d.toNat then 9 else d.toNat

/-- R173: everything `WR LEVEL` does, cases A to E in order; `n` is the clamped level of R172. -/
def Obligations.WriteLevelResult : Prop :=
  ∀ (d : Byte) (s : State) (n : Level),
    n.val = (if 0x80 ≤ d.toNat then 0 else if 10 ≤ d.toNat then 9 else d.toNat) →
    exec (.wrLevel d) s = .next
      { s with
        block :=
          if n = 0 then
            { s.block with startReq := false, level := n, run := false, kickCnt := 0,
                           phaseAngle := lutAt Config.machine 0 }
          else if s.block.run = false ∧ s.block.startReq = true then
            { s.block with startReq := false, level := n, run := true, kickCnt := 200,
                           phaseAngle := lutAt Config.machine 9 }
          else if s.block.run = false then
            { s.block with startReq := false, level := n, phaseAngle := lutAt Config.machine n }
          else if s.block.kickCnt ≠ 0 then
            { s.block with startReq := false, level := n }
          else
            { s.block with startReq := false, level := n, phaseAngle := lutAt Config.machine n } }

/-- R176: the hold counts zero-crosses, whatever happens between them but a level write or a reset, and ends at the last
of them with the angle of the level in force. -/
def Obligations.KickStartCountsZeroCrosses : Prop :=
  ∀ (c : Config) (s : State) (ops : List Instr), (∀ d, .wrLevel d ∉ ops) → .rst ∉ ops → s.block.kickCnt ≠ 0 →
    (runOps c ops s).block.kickCnt.toNat = s.block.kickCnt.toNat - ops.count .zc
      ∧ (runOps c ops s).block.phaseAngle =
          if ops.count .zc < s.block.kickCnt.toNat then s.block.phaseAngle else lutAt c s.block.level

/-- R180, R179: the fan comes to run only through a requested start, with a full kick-start hold at the full-speed
angle, and no operation but that one loads the hold. -/
def Obligations.RunBeginsWithKickStart : Prop :=
  ∀ (i : Instr) (s : State), ∃ t, exec i s = .next t
    ∧ (s.block.run = false → t.block.run = true →
        ∃ d, i = .wrLevel d ∧ s.block.startReq = true ∧ t.block.kickCnt = 200
          ∧ t.block.phaseAngle = lutAt Config.machine 9)
    ∧ (s.block.kickCnt.toNat < t.block.kickCnt.toNat → s.block.run = false ∧ t.block.run = true)

/-- R182, `10_state.md` R34: the angle changes only at a level write, at the end of a hold and at reset, and what is
written is a table entry. -/
def Obligations.OnlyMapperWritesAngle : Prop :=
  ∀ (c : Config) (i : Instr) (s : State), (perform c i s).block.phaseAngle ≠ s.block.phaseAngle →
    ((∃ d, i = .wrLevel d) ∨ (i = .zc ∧ s.block.kickCnt = 1) ∨ i = .rst)
      ∧ ∃ n, (perform c i s).block.phaseAngle = lutAt c n

/-! ### Timebase -/

/-- `42_timebase.md` R191, R193, R194: everything `TB` does. -/
def Obligations.TimebaseTickResult : Prop :=
  ∀ s : State,
    (s.block.tbCnt ≠ 0xFFFF → exec .tb s = .next { s with block := { s.block with tbCnt := s.block.tbCnt + 1 } })
    ∧ (s.block.tbCnt = 0xFFFF → exec .tb s = .next
        { s with
          block :=
            { s.block with
              tbCnt := 0
              ovfCnt := s.block.ovfCnt + 1
              irIdle := if s.block.irIdle = 0 then 1 else 2
              flags :=
                { s.block.flags with
                  ovfF := true
                  rptPend := if s.block.irIdle = 0 then s.block.flags.rptPend else false } } })

/-- R198, R191: the net effect of `TBN n`; `k` overflow ticks. These rules and `00_scope.md` R16 say modulo 2^16, which is
the machine's; that the timebase counts modulo `2^TB_WIDTH` at the other widths that R11's parameter can take is the model's
choice (DESIGN CHOICE, log entry 2). The hypothesis on the count says that it is a value of a counter of that width. -/
def Obligations.ManyTimebaseTicks : Prop :=
  ∀ (c : Config) (s : State) (n k : Nat), c.admissible = true → s.block.tbCnt.toNat < 2 ^ c.tbWidth →
    k = (s.block.tbCnt.toNat + n) / 2 ^ c.tbWidth →
    runOps c (tbN n) s =
      { s with
        block :=
          { s.block with
            tbCnt := BitVec.ofNat 16 ((s.block.tbCnt.toNat + n) % 2 ^ c.tbWidth)
            ovfCnt := BitVec.ofNat 8 (s.block.ovfCnt.toNat + k)
            irIdle :=
              if k = 0 then s.block.irIdle
              else BitVec.ofNat 2 (min (s.block.irIdle.toNat + k) c.irIdleTicks.toNat)
            flags :=
              { s.block.flags with
                ovfF := s.block.flags.ovfF || decide (0 < k)
                rptPend :=
                  s.block.flags.rptPend
                    && !decide (0 < k ∧ c.irIdleTicks.toNat ≤ s.block.irIdle.toNat + k) } } }

/-- R195: after an edge a pending repeat outlives one whole overflow period of ticks and is gone after two. -/
def Obligations.PendingRepeatLifetime : Prop :=
  ∀ (s : State) (n : Nat), s.block.irIdle = 0 → s.block.flags.rptPend = true →
    (n ≤ 65536 → (runOps Config.machine (tbN n) s).block.flags.rptPend = true)
      ∧ (131072 ≤ n → (runOps Config.machine (tbN n) s).block.flags.rptPend = false)

/-! ### Decoder; `edgeOp true` is `IRA` and `edgeOp false` is `IRI` -/

/-- `43_ir_decoder.md` R207, R208: an edge in Idle. -/
def Obligations.EdgeInIdle : Prop :=
  ∀ s : State, s.block.irState = .idle →
    exec .ira s = .next
      { s with
        block :=
          { s.block with irLast := s.block.tbCnt, irLevel := true, irIdle := 0, acc := 0, bitCnt := 0,
                         irState := .mark } }
    ∧ (s.block.bitCnt.toNat ≤ 31 → exec .iri s = .next
        { s with block := { s.block with irLast := s.block.tbCnt, irLevel := false, irIdle := 0 } })

/-- R207, R209, R217: an edge in Mark; the interval is modulo 2^16. -/
def Obligations.EdgeInMark : Prop :=
  ∀ (lvl : Bool) (s : State) (iv : Nat), s.block.irState = .mark → s.block.bitCnt.toNat ≤ 31 →
    iv = (s.block.tbCnt - s.block.irLast).toNat →
    exec (edgeOp lvl) s = .next
      { s with
        block :=
          { s.block with
            irLast := s.block.tbCnt, irLevel := lvl, irIdle := 0
            irState := if iv < 787 then .idle else .space
            bitCnt := if iv < 787 then 0 else s.block.bitCnt } }

/-- R207, R210: an edge in Space. -/
def Obligations.EdgeInSpace : Prop :=
  ∀ (lvl : Bool) (s : State) (iv : Nat), s.block.irState = .space → s.block.bitCnt.toNat ≤ 31 →
    iv = (s.block.tbCnt - s.block.irLast).toNat →
    exec (edgeOp lvl) s = .next
      { s with
        block :=
          { s.block with
            irLast := s.block.tbCnt, irLevel := lvl, irIdle := 0
            irState := if iv < 394 then .repeatFrame else .highBit } }

/-- R207, R211, R217: an edge in HighBit. -/
def Obligations.EdgeInHighBit : Prop :=
  ∀ (lvl : Bool) (s : State) (iv : Nat), s.block.irState = .highBit → s.block.bitCnt.toNat ≤ 31 →
    iv = (s.block.tbCnt - s.block.irLast).toNat →
    exec (edgeOp lvl) s = .next
      { s with
        block :=
          { s.block with
            irLast := s.block.tbCnt, irLevel := lvl, irIdle := 0
            irState := if 56 ≤ iv ∧ iv ≤ 84 then .lowBit else .idle
            bitCnt := if 56 ≤ iv ∧ iv ≤ 84 then s.block.bitCnt else 0 } }

/-- R207, R212, R213, R215, R217: an edge in LowBit. The bit is shifted in even where the error is raised; the error
beats completion. -/
def Obligations.EdgeInLowBit : Prop :=
  ∀ (lvl : Bool) (s : State) (iv : Nat) (acc' : FrameWord), s.block.irState = .lowBit → s.block.bitCnt.toNat ≤ 31 →
    iv = (s.block.tbCnt - s.block.irLast).toNat →
    acc' = (if 168 ≤ iv then 0x80000000 else 0) ||| s.block.acc >>> 1 →
    exec (edgeOp lvl) s = .next
      { s with
        block :=
          if iv < 56 ∨ 252 < iv then
            { s.block with irLast := s.block.tbCnt, irLevel := lvl, irIdle := 0, acc := acc', irState := .idle,
                           bitCnt := 0 }
          else if s.block.bitCnt = 31 then
            { s.block with irLast := s.block.tbCnt, irLevel := lvl, irIdle := 0, acc := acc', irState := .idle,
                           bitCnt := 0, frame := acc', flags := { s.block.flags with frameRdy := true } }
          else
            { s.block with irLast := s.block.tbCnt, irLevel := lvl, irIdle := 0, acc := acc', irState := .highBit,
                           bitCnt := s.block.bitCnt + 1 } }

/-- R207, R214, R217: an edge in Repeat. -/
def Obligations.EdgeInRepeat : Prop :=
  ∀ (lvl : Bool) (s : State) (iv : Nat), s.block.irState = .repeatFrame → s.block.bitCnt.toNat ≤ 31 →
    iv = (s.block.tbCnt - s.block.irLast).toNat →
    exec (edgeOp lvl) s = .next
      { s with
        block :=
          if 56 ≤ iv ∧ iv ≤ 84 then
            { s.block with irLast := s.block.tbCnt, irLevel := lvl, irIdle := 0, irState := .idle,
                           flags := { s.block.flags with rptPend := true } }
          else
            { s.block with irLast := s.block.tbCnt, irLevel := lvl, irIdle := 0, irState := .idle, bitCnt := 0 } }

/-- `60_exceptions.md` R321: which edges raise which soft error, under every configuration. The interval is modulo 2^16 by
`43_ir_decoder.md` R207 and `00_scope.md` R16; that it is modulo `2^TB_WIDTH` at other widths is the model's choice (DESIGN
CHOICE, log entry 2). -/
def Obligations.SoftErrorCauses : Prop :=
  ∀ (c : Config) (lvl : Bool) (b : Block) (iv : Nat), iv = (b.tbCnt - b.irLast).toNat % 2 ^ c.tbWidth →
    (edgeError c lvl b = some .markShort ↔ b.irState = .mark ∧ iv < c.markMin)
    ∧ (edgeError c lvl b = some .highOutOfBounds ↔ b.irState = .highBit ∧ (iv < c.bitMin ∨ c.bitMax < iv))
    ∧ (edgeError c lvl b = some .lowOutOfBounds ↔ b.irState = .lowBit ∧ (iv < c.lowMin ∨ c.lowMax < iv))
    ∧ (edgeError c lvl b = some .repeatOutOfBounds ↔ b.irState = .repeatFrame ∧ (iv < c.bitMin ∨ c.bitMax < iv))

/-- R328, R329 and `43_ir_decoder.md` R212, R213: a soft error leaves the decoder in Idle with no bit counted; besides the
prologue's writes and, in LowBit, the shift of the decoded bit into `ACC`, nothing else is touched. The interval that decodes the bit is modulo 2^16; at
other widths of the timebase it is the model's choice (DESIGN CHOICE, log entry 2). -/
def Obligations.SoftErrorOnlyResetsDecoder : Prop :=
  ∀ (c : Config) (lvl : Bool) (s : State), edgeError c lvl s.block ≠ none →
    perform c (edgeOp lvl) s =
      { s with
        block :=
          { s.block with
            irLast := s.block.tbCnt, irLevel := lvl, irIdle := 0, irState := .idle, bitCnt := 0
            acc :=
              if s.block.irState = .lowBit
              then shiftIn c.accDir s.block.acc (decodedBit c (interval c s.block)) else s.block.acc } }

/-- R207, R222: an edge is judged by the distance of two timestamps modulo 2^16, and by nothing else of them; at other
widths of the timebase the distance is modulo `2^TB_WIDTH`, the model's choice (DESIGN CHOICE, log entry 2). -/
def Obligations.EdgeSeesOnlyTheInterval : Prop :=
  ∀ (c : Config) (lvl : Bool) (b : Block) (k : Ticks),
    irEdge c lvl { b with tbCnt := b.tbCnt + k, irLast := b.irLast + k } =
      { irEdge c lvl b with tbCnt := b.tbCnt + k, irLast := b.tbCnt + k }

/-- `43_ir_decoder.md` R219: a well-timed frame is decoded, under both directions of the shift. -/
def Obligations.WellTimedFrameIsDecoded : Prop :=
  ∀ (dir : AccDir) (s : State) (lead gap : Nat) (bits : List (Nat × Nat)), s.block.irState = .idle →
    787 ≤ lead → lead < 65536 → 394 ≤ gap → gap < 65536 → bits.length = 32 →
    (∀ p ∈ bits, 56 ≤ p.1 ∧ p.1 ≤ 84 ∧ 56 ≤ p.2 ∧ p.2 ≤ 252) →
    ∀ t, runOps { Config.machine with accDir := dir } (wireFrame lead gap bits) s = t →
      t.block.flags.frameRdy = true ∧ t.block.irState = .idle ∧ t.block.bitCnt = 0
      ∧ ∀ (k : Nat) (p : Nat × Nat), bits[k]? = some p →
          t.block.frame.getLsbD (match dir with | .right => k | .left => 31 - k) = decide (168 ≤ p.2)

/-- R220: a well-timed repeat frame is recognised; it carries no data. -/
def Obligations.RepeatFrameIsRecognised : Prop :=
  ∀ (s : State) (lead gap pulse : Nat), s.block.irState = .idle → 787 ≤ lead → lead < 65536 → gap < 394 →
    56 ≤ pulse → pulse ≤ 84 →
    ∀ t, runOps Config.machine (wireRepeat lead gap pulse) s = t →
      t.block.flags.rptPend = true ∧ t.block.irState = .idle
      ∧ t.block.frame = s.block.frame ∧ t.block.flags.frameRdy = s.block.flags.frameRdy

/-- R224: in Idle a burst shorter than the leading burst is consumed and leaves the decoder in Idle, delivering nothing. -/
def Obligations.ShortBurstResynchronises : Prop :=
  ∀ (s : State) (n : Nat), s.block.irState = .idle → n < 787 →
    ∀ t, runOps Config.machine (burst n) s = t →
      t.block.irState = .idle ∧ t.block.bitCnt = 0 ∧ t.block.frame = s.block.frame
      ∧ t.block.flags.frameRdy = s.block.flags.frameRdy

/-! ### The two halves -/

/-- R229: what an operation does to the decoder's half does not depend on the firing engine's half. -/
def Obligations.DecoderIgnoresFiringHalf : Prop :=
  ∀ (c : Config) (i : Instr) (s s' : State), s.block.decoderHalf = s'.block.decoderHalf →
    (perform c i s).block.decoderHalf = (perform c i s').block.decoderHalf

/-- R229: what an operation does to the firing engine's half and to the gate trace does not depend on the decoder's
half. -/
def Obligations.FiringIgnoresDecoderHalf : Prop :=
  ∀ (c : Config) (i : Instr) (s s' : State), s.block.firingHalf = s'.block.firingHalf → s.gateTrace = s'.gateTrace →
    (perform c i s).block.firingHalf = (perform c i s').block.firingHalf
      ∧ (perform c i s).gateTrace = (perform c i s').gateTrace

/-- R229, `42_timebase.md` R199: the firing engine and the mapper leave the decoder's half alone, the decoder and the
timebase leave the firing engine's half and the gate alone. -/
def Obligations.HalvesWriteApart : Prop :=
  ∀ (s : State) (d : Byte),
    (∀ i ∈ [Instr.zc, .dt, .wrLevel d, .wrCtrl d], ∃ t, exec i s = .next t
      ∧ t.block.decoderHalf = s.block.decoderHalf ∧ t.readTrace = s.readTrace)
    ∧ (∀ i ∈ [Instr.tb, .ira, .iri], ∃ t, exec i s = .next t
      ∧ t.block.firingHalf = s.block.firingHalf ∧ t.gateTrace = s.gateTrace ∧ t.readTrace = s.readTrace)

/-! ### Host accesses -/

/-- `44_host_access.md` R241, R242, R243, R246, R247: the bytes of five reads. -/
def Obligations.ReadDataRegisters : Prop :=
  ∀ s : State,
    exec .rdLevel s = .next { s with readTrace := s.readTrace ++ [BitVec.ofNat 8 s.block.level.val] }
    ∧ exec .rdCtrl s = .next { s with readTrace := s.readTrace ++ [if s.block.startReq then 1 else 0] }
    ∧ exec .rdAngle s = .next { s with readTrace := s.readTrace ++ [s.block.phaseAngle] }
    ∧ exec .rdHccnt s = .next { s with readTrace := s.readTrace ++ [s.block.hcCnt] }
    ∧ exec .rdOvfcnt s = .next { s with readTrace := s.readTrace ++ [s.block.ovfCnt] }

/-- R244, R245, R248: the bits of `STATUS`, `FLAGS` and `IRSTAT`. -/
def Obligations.ReadStatusRegisters : Prop :=
  ∀ s : State,
    (∃ v : Byte, exec .rdStatus s = .next { s with readTrace := s.readTrace ++ [v] }
      ∧ v.getLsbD 0 = s.block.run ∧ v.getLsbD 1 = decide (s.block.kickCnt ≠ 0) ∧ v.getLsbD 2 = s.block.gate
      ∧ v.getLsbD 3 = s.block.dlyArmed ∧ v.getLsbD 4 = s.block.irLevel ∧ v.toNat < 32)
    ∧ (∃ v : Byte, exec .rdFlags s = .next { s with readTrace := s.readTrace ++ [v] }
      ∧ v.getLsbD 0 = s.block.flags.frameRdy ∧ v.getLsbD 1 = s.block.flags.rptPend
      ∧ v.getLsbD 2 = s.block.flags.ovfF ∧ v.getLsbD 3 = s.block.flags.zcF ∧ v.toNat < 16)
    ∧ (∃ v : Byte, exec .rdIrstat s = .next { s with readTrace := s.readTrace ++ [v] }
      ∧ v.toNat % 32 = s.block.bitCnt.toNat % 32
      ∧ v.toNat / 32 = match s.block.irState with
          | .idle => 0 | .mark => 1 | .space => 2 | .highBit => 3 | .lowBit => 4 | .repeatFrame => 5)

/-- `20_memory.md` R84, R249 to R252: the four reads give `FRAME`, least significant byte at the lowest address. -/
def Obligations.ReadFrameLittleEndian : Prop :=
  ∀ s : State, ∃ v0 v1 v2 v3 : Byte,
    exec .rdFrame0 s = .next { s with readTrace := s.readTrace ++ [v0] }
    ∧ exec .rdFrame1 s = .next { s with readTrace := s.readTrace ++ [v1] }
    ∧ exec .rdFrame2 s = .next { s with readTrace := s.readTrace ++ [v2] }
    ∧ exec .rdFrame3 s = .next { s with readTrace := s.readTrace ++ [v3] }
    ∧ s.block.frame.toNat = v0.toNat + 256 * v1.toNat + 65536 * v2.toNat + 16777216 * v3.toNat

/-- R253 to R256, R269 to R272: the reserved addresses read 0 and ignore writes. -/
def Obligations.ReservedAddresses : Prop :=
  ∀ (s : State) (d : Byte),
    (∀ p ∈ [(Instr.rdRsvc, (0x8C00 : OpWord)), (.rdRsvd, 0x8D00), (.rdRsve, 0x8E00), (.rdRsvf, 0x8F00)],
      encode p.1 = p.2 ∧ exec p.1 s = .next { s with readTrace := s.readTrace ++ [0] })
    ∧ (∀ p ∈ [(Instr.wrRsvc d, 0x9C00), (.wrRsvd d, 0x9D00), (.wrRsve d, 0x9E00), (.wrRsvf d, 0x9F00)],
      (encode p.1).toNat = p.2 + d.toNat ∧ exec p.1 s = .next s)

/-- R260, R262 to R268, and the effect of R259: a write to a read-only register is ignored. -/
def Obligations.ReadOnlyRegisters : Prop :=
  ∀ (s : State) (d : Byte),
    ∀ p ∈ [(Instr.wrAngle d, 0x9200), (.wrStatus d, 0x9300), (.wrHccnt d, 0x9500), (.wrOvfcnt d, 0x9600),
        (.wrIrstat d, 0x9700), (.wrFrame0 d, 0x9800), (.wrFrame1 d, 0x9900), (.wrFrame2 d, 0x9A00),
        (.wrFrame3 d, 0x9B00)],
      (encode p.1).toNat = p.2 + d.toNat ∧ exec p.1 s = .next s

/-- R258: `WR CTRL` stores bit 0 and nothing else. -/
def Obligations.WriteCtrlStoresBitZero : Prop :=
  (∀ (s : State) (d : Byte), (encode (.wrCtrl d)).toNat = 0x9100 + d.toNat
    ∧ exec (.wrCtrl d) s = .next { s with block := { s.block with startReq := decide (d.toNat % 2 = 1) } })
  ∧ ∀ s : State, exec (.wrCtrl 0x01) s = .next { s with block := { s.block with startReq := true } }
    ∧ exec (.wrCtrl 0xFE) s = .next { s with block := { s.block with startReq := false } }

/-- R261: write-1-to-clear, each bit for the flag of its place, and nothing else. -/
def Obligations.WriteFlagsClears : Prop :=
  ∀ (s : State) (d : Byte), exec (.wrFlags d) s = .next
    { s with
      block :=
        { s.block with
          flags :=
            { frameRdy := if d.toNat % 2 = 1 then false else s.block.flags.frameRdy
              rptPend := if d.toNat / 2 % 2 = 1 then false else s.block.flags.rptPend
              ovfF := if d.toNat / 4 % 2 = 1 then false else s.block.flags.ovfF
              zcF := if d.toNat / 8 % 2 = 1 then false else s.block.flags.zcF } } }

/-- `20_memory.md` R83, R88: what each writing access can change of the register space, read through `MemRead`. -/
def Obligations.WritesReachOnlyTheirRegisters : Prop :=
  ∀ (s : State) (d : Byte),
    (∃ t, exec (.wrLevel d) s = .next t ∧ t.gateTrace = s.gateTrace
      ∧ (∀ a : RegAddr, 4 ≤ a.toNat → memRead a t.block = memRead a s.block) ∧ memRead 1 t.block = 0
      ∧ (memRead 3 t.block).toNat / 4 = (memRead 3 s.block).toNat / 4)
    ∧ (∃ t, exec (.wrCtrl d) s = .next t ∧ t.gateTrace = s.gateTrace
      ∧ ∀ a : RegAddr, a ≠ 1 → memRead a t.block = memRead a s.block)
    ∧ (∃ t, exec (.wrFlags d) s = .next t ∧ t.gateTrace = s.gateTrace
      ∧ (∀ a : RegAddr, a ≠ 4 → memRead a t.block = memRead a s.block)
      ∧ memRead 4 t.block = memRead 4 s.block &&& ~~~d)

/-- R277, `60_exceptions.md` R335: a write sets no flag, drives no gate and steers neither counter nor decoder. -/
def Obligations.HostCannotDriveHardware : Prop :=
  ∀ (r : Reg) (d : Byte) (s : State), ∃ t, exec (r.writeOp d) s = .next t
    ∧ t.gateTrace = s.gateTrace ∧ t.readTrace = s.readTrace
    ∧ t.block.gate = s.block.gate ∧ t.block.dlyCnt = s.block.dlyCnt ∧ t.block.dlyArmed = s.block.dlyArmed
    ∧ t.block.hcCnt = s.block.hcCnt
    ∧ { t.block.decoderHalf with
        frameRdy := s.block.flags.frameRdy, rptPend := s.block.flags.rptPend, ovfF := s.block.flags.ovfF }
        = s.block.decoderHalf
    ∧ (t.block.flags.frameRdy = true → s.block.flags.frameRdy = true)
    ∧ (t.block.flags.rptPend = true → s.block.flags.rptPend = true)
    ∧ (t.block.flags.ovfF = true → s.block.flags.ovfF = true)
    ∧ (t.block.flags.zcF = true → s.block.flags.zcF = true)

/-- `60_exceptions.md` R327, `20_memory.md` R93, `44_host_access.md` R261: of stimuli in one cycle a set of a flag wins over
its clear by the host, for each of the four flags, and a reset discards the others. The clauses are: the reset; `ZC_F` by
`ZC`; `OVF_F` by a `TB` that wraps; `FRAME_RDY` by an edge that takes the last bit; `RPT_PEND` by an edge that confirms a
repeat, unless the inactivity window of a wrapping `TB` in the same cycle is one tick long and clears it again. Where a
`TB` wraps, and which bit is the last, at widths and counts other than R11's is the model's choice (DESIGN CHOICE, log entry
2). -/
def Obligations.SameCycleSetWins : Prop :=
  ∀ (c : Config) (s : State) (k : Cycle),
    (k.rst = true → runOps c (cycleOps k) s = perform c .rst s)
    ∧ (k.rst = false → k.zc = true → (runOps c (cycleOps k) s).block.flags.zcF = true)
    ∧ (k.rst = false → k.tb = true → c.tick (s.block.tbCnt + 1) = 0 →
        (runOps c (cycleOps k) s).block.flags.ovfF = true)
    ∧ (c.admissible = true → k.rst = false → k.ir ≠ none → s.block.irState = .lowBit →
        s.block.bitCnt.toNat + 1 = c.frameBits → c.lowMin ≤ (interval c s.block).toNat →
        (interval c s.block).toNat ≤ c.lowMax → (runOps c (cycleOps k) s).block.flags.frameRdy = true)
    ∧ (k.rst = false → k.ir ≠ none → s.block.irState = .repeatFrame → c.bitMin ≤ (interval c s.block).toNat →
        (interval c s.block).toNat ≤ c.bitMax →
        k.tb = false ∨ c.tick (s.block.tbCnt + 1) ≠ 0 ∨ 2 ≤ c.irIdleTicks.toNat →
        (runOps c (cycleOps k) s).block.flags.rptPend = true)

/-! ### The host's side of the port -/

/-- `30_encoding.md` R115: one frame on the wire gives words that are valid under one direction of the shift exactly if
they are under the other, and flipping one bit of a valid word makes it invalid. -/
def Obligations.FrameChecksum : Prop :=
  (∀ w : FrameWord, frameValid .left w.reverse = frameValid .right w)
    ∧ ∀ (dir : AccDir) (w : FrameWord) (k : Nat), k < 32 → frameValid dir w = true →
        frameValid dir (w ^^^ (1#32 <<< k)) = false

/-- `45_host_environment.md` R297, `70_reset_and_hazards.md` R354: what the boot sequence leaves, from reset, for every
stored speed and status byte. R297 says only "clamp": that a stored speed of 0x80 to 0xFF is read as a negative number, and
so gives level 0, is the model's choice (DESIGN CHOICE, log entry 15). -/
def Obligations.BootAppliesStoredSpeed : Prop :=
  ∀ (speed status : Byte), ∀ t, runOps Config.machine (bootOps Config.machine speed status) State.reset = t →
    t.block.level = clampLevel Config.machine speed ∧ t.block.gate = false ∧ t.gateTrace = []
    ∧ t.block.run = (status.getLsbD 0 && decide (clampLevel Config.machine speed ≠ 0))
    ∧ t.block.kickCnt = (if t.block.run then 200 else 0)
    ∧ t.block.phaseAngle = lutAt Config.machine (if t.block.run then 9 else clampLevel Config.machine speed)

/-- `45_host_environment.md` R304 item 7, in the host model of log entry 15: while the fan is off, taking a valid frame
with the command of DIGIT5 starts the fan at level 5 through a kick-start, consumes the frame, loads the indicator's feedback counter with
`FEEDBACK_HALFCYCLES` and leaves the unknown-command flag clear (R287). -/
def Obligations.DigitFiveStartsFan : Prop :=
  ∀ (hc : HostConfig) (x : Site), hc.cmdTable.lookup 0x1C = some (.digit 5) →
    x.machine.block.run = false → x.machine.block.flags.frameRdy = true →
    frameValid .right x.machine.block.frame = true → (frameFields .right x.machine.block.frame).2.2.1 = 0x1C →
    ∀ y, x.takeFrame Config.machine hc = y →
      y.machine.block.run = true ∧ y.machine.block.level = 5 ∧ y.machine.block.kickCnt = 200
      ∧ y.machine.block.phaseAngle = lutAt Config.machine 9 ∧ y.machine.block.flags.frameRdy = false
      ∧ y.host.speed = 5 ∧ y.host.indicator = hc.feedbackHalfcycles ∧ y.host.unknown = false
end

