-- ==== Sys2Proof/Laws/Decode.lean ====
section
/-! SUPPORT. Laws/Decode.lean: the fields of an operation word, and the registers and their addresses. -/

namespace Sys2Proof

@[simp] theorem Reg.ofAddr_addr (r : Reg) : Reg.ofAddr r.addr = r := by cases r <;> decide

@[simp] theorem Reg.addr_ofAddr (a : RegAddr) : (Reg.ofAddr a).addr = a := by revert a; decide

@[simp] theorem opClass_formatEV (k : BitVec 4) (l : Bool) : opClass (formatEV k l) = k := by
  revert k l; decide

@[simp] theorem opZero_formatEV (k : BitVec 4) (l : Bool) : opZero (formatEV k l) = 0 := by
  revert k l; decide

@[simp] theorem opLvl_formatEV (k : BitVec 4) (l : Bool) : opLvl (formatEV k l) = l := by
  revert k l; decide

@[simp] theorem opClass_formatHB (k : BitVec 4) (r : Reg) (d : Byte) : opClass (formatHB k r d) = k := by
  apply BitVec.eq_of_getLsbD_eq
  intro i hi
  interval_cases i <;> simp [opClass, formatHB]

@[simp] theorem opAddr_formatHB (k : BitVec 4) (r : Reg) (d : Byte) : opAddr (formatHB k r d) = r.addr := by
  apply BitVec.eq_of_getLsbD_eq
  intro i hi
  interval_cases i <;> simp [opAddr, formatHB]

@[simp] theorem opData_formatHB (k : BitVec 4) (r : Reg) (d : Byte) : opData (formatHB k r d) = d := by
  apply BitVec.eq_of_getLsbD_eq
  intro i hi
  interval_cases i <;> simp [opData, formatHB]

/-- A word is its class, its address and its data byte (format HB). -/
theorem formatHB_fields (w : OpWord) : formatHB (opClass w) (Reg.ofAddr (opAddr w)) (opData w) = w := by
  apply BitVec.eq_of_getLsbD_eq
  intro i hi
  interval_cases i <;> simp [formatHB, opClass, opAddr, opData]

/-- A word whose must-be-zero field is zero is its class and its `lvl` bit (format EV). -/
theorem formatEV_fields (w : OpWord) (h : opZero w = 0) : formatEV (opClass w) (opLvl w) = w := by
  have hz : ∀ j, j < 11 → w.getLsbD (1 + j) = false := fun j hj => by
    have := congrArg (fun z : BitVec 11 => z.getLsbD j) h
    simpa [opZero, hj] using this
  apply BitVec.eq_of_getLsbD_eq
  intro i hi
  by_cases h0 : i = 0
  · subst h0; simp [formatEV, opLvl]
  · by_cases h12 : i < 12
    · have hi' : w.getLsbD i = false := by simpa [show 1 + (i - 1) = i by omega] using hz (i - 1) (by omega)
      rw [hi']
      interval_cases i <;> simp_all [formatEV]
    · interval_cases i <;> simp_all [formatEV, opClass]

/-- The operation word of a read of a register. -/
theorem encode_readOp (r : Reg) : encode r.readOp = formatHB 0x8 r 0 := by cases r <;> rfl

/-- The operation word of a write to a register. -/
theorem encode_writeOp (r : Reg) (d : Byte) : encode (r.writeOp d) = formatHB 0x9 r d := by cases r <;> rfl

end Sys2Proof
end

