-- ==== Sys2Proof/Laws/State.lean ====
section
/-! SUPPORT. Laws/State.lean: one lemma per field per update of the state record, true by `rfl`. -/

namespace Sys2Proof.Machine

/-! The values of R11 in the machine's configuration. -/

@[simp] theorem Config.machine_kickHalfcycles : Config.machine.kickHalfcycles = 200 := rfl
@[simp] theorem Config.machine_markMin : Config.machine.markMin = 787 := rfl
@[simp] theorem Config.machine_spaceMin : Config.machine.spaceMin = 197 := rfl
@[simp] theorem Config.machine_spaceRpt : Config.machine.spaceRpt = 394 := rfl
@[simp] theorem Config.machine_bitMin : Config.machine.bitMin = 56 := rfl
@[simp] theorem Config.machine_bitMax : Config.machine.bitMax = 84 := rfl
@[simp] theorem Config.machine_bitDisc : Config.machine.bitDisc = 168 := rfl
@[simp] theorem Config.machine_lowMin : Config.machine.lowMin = 56 := rfl
@[simp] theorem Config.machine_lowMax : Config.machine.lowMax = 252 := rfl
@[simp] theorem Config.machine_fullIdx : Config.machine.fullIdx = 9 := rfl
@[simp] theorem Config.machine_nLevels : Config.machine.nLevels = 10 := rfl
@[simp] theorem Config.machine_frameBits : Config.machine.frameBits = 32 := rfl
@[simp] theorem Config.machine_tbWidth : Config.machine.tbWidth = 16 := rfl
@[simp] theorem Config.machine_accDir : Config.machine.accDir = .right := rfl
@[simp] theorem Config.machine_irIdleTicks : Config.machine.irIdleTicks = 2 := rfl

section StateUpdates

variable (s : State) (f : Block → Block) (v : Bool) (d : Byte)

@[simp] theorem State.mapBlock_block : (s.mapBlock f).block = f s.block := rfl
@[simp] theorem State.mapBlock_gateTrace : (s.mapBlock f).gateTrace = s.gateTrace := rfl
@[simp] theorem State.mapBlock_readTrace : (s.mapBlock f).readTrace = s.readTrace := rfl
@[simp] theorem State.mapBlock_stimuli : (s.mapBlock f).stimuli = s.stimuli := rfl
@[simp] theorem State.driveGate_block : (s.driveGate v).block = { s.block with gate := v } := rfl
@[simp] theorem State.driveGate_gateTrace : (s.driveGate v).gateTrace = if v = s.block.gate then s.gateTrace else s.gateTrace ++ [v] := rfl
@[simp] theorem State.driveGate_readTrace : (s.driveGate v).readTrace = s.readTrace := rfl
@[simp] theorem State.driveGate_stimuli : (s.driveGate v).stimuli = s.stimuli := rfl
@[simp] theorem State.returnByte_block : (s.returnByte d).block = s.block := rfl
@[simp] theorem State.returnByte_gateTrace : (s.returnByte d).gateTrace = s.gateTrace := rfl
@[simp] theorem State.returnByte_readTrace : (s.returnByte d).readTrace = s.readTrace ++ [d] := rfl
@[simp] theorem State.returnByte_stimuli : (s.returnByte d).stimuli = s.stimuli := rfl

variable (w : OpWord)

@[simp] theorem State.arrive_block : (s.arrive w).block = s.block := rfl
@[simp] theorem State.arrive_gateTrace : (s.arrive w).gateTrace = s.gateTrace := rfl
@[simp] theorem State.arrive_readTrace : (s.arrive w).readTrace = s.readTrace := rfl
@[simp] theorem State.arrive_stimuli : (s.arrive w).stimuli = w :: s.stimuli := rfl

end StateUpdates

section BlockUpdates

variable (b : Block)

@[simp] theorem Block.raiseFrameRdy_irState : b.raiseFrameRdy.irState = b.irState := rfl
@[simp] theorem Block.raiseFrameRdy_phaseAngle : b.raiseFrameRdy.phaseAngle = b.phaseAngle := rfl
@[simp] theorem Block.raiseFrameRdy_dlyCnt : b.raiseFrameRdy.dlyCnt = b.dlyCnt := rfl
@[simp] theorem Block.raiseFrameRdy_dlyArmed : b.raiseFrameRdy.dlyArmed = b.dlyArmed := rfl
@[simp] theorem Block.raiseFrameRdy_gate : b.raiseFrameRdy.gate = b.gate := rfl
@[simp] theorem Block.raiseFrameRdy_run : b.raiseFrameRdy.run = b.run := rfl
@[simp] theorem Block.raiseFrameRdy_level : b.raiseFrameRdy.level = b.level := rfl
@[simp] theorem Block.raiseFrameRdy_startReq : b.raiseFrameRdy.startReq = b.startReq := rfl
@[simp] theorem Block.raiseFrameRdy_kickCnt : b.raiseFrameRdy.kickCnt = b.kickCnt := rfl
@[simp] theorem Block.raiseFrameRdy_tbCnt : b.raiseFrameRdy.tbCnt = b.tbCnt := rfl
@[simp] theorem Block.raiseFrameRdy_hcCnt : b.raiseFrameRdy.hcCnt = b.hcCnt := rfl
@[simp] theorem Block.raiseFrameRdy_ovfCnt : b.raiseFrameRdy.ovfCnt = b.ovfCnt := rfl
@[simp] theorem Block.raiseFrameRdy_irLevel : b.raiseFrameRdy.irLevel = b.irLevel := rfl
@[simp] theorem Block.raiseFrameRdy_irLast : b.raiseFrameRdy.irLast = b.irLast := rfl
@[simp] theorem Block.raiseFrameRdy_acc : b.raiseFrameRdy.acc = b.acc := rfl
@[simp] theorem Block.raiseFrameRdy_bitCnt : b.raiseFrameRdy.bitCnt = b.bitCnt := rfl
@[simp] theorem Block.raiseFrameRdy_frame : b.raiseFrameRdy.frame = b.frame := rfl
@[simp] theorem Block.raiseFrameRdy_irIdle : b.raiseFrameRdy.irIdle = b.irIdle := rfl
@[simp] theorem Block.raiseFrameRdy_flags : b.raiseFrameRdy.flags = { b.flags with frameRdy := true } := rfl

@[simp] theorem Block.raiseRptPend_irState : b.raiseRptPend.irState = b.irState := rfl
@[simp] theorem Block.raiseRptPend_phaseAngle : b.raiseRptPend.phaseAngle = b.phaseAngle := rfl
@[simp] theorem Block.raiseRptPend_dlyCnt : b.raiseRptPend.dlyCnt = b.dlyCnt := rfl
@[simp] theorem Block.raiseRptPend_dlyArmed : b.raiseRptPend.dlyArmed = b.dlyArmed := rfl
@[simp] theorem Block.raiseRptPend_gate : b.raiseRptPend.gate = b.gate := rfl
@[simp] theorem Block.raiseRptPend_run : b.raiseRptPend.run = b.run := rfl
@[simp] theorem Block.raiseRptPend_level : b.raiseRptPend.level = b.level := rfl
@[simp] theorem Block.raiseRptPend_startReq : b.raiseRptPend.startReq = b.startReq := rfl
@[simp] theorem Block.raiseRptPend_kickCnt : b.raiseRptPend.kickCnt = b.kickCnt := rfl
@[simp] theorem Block.raiseRptPend_tbCnt : b.raiseRptPend.tbCnt = b.tbCnt := rfl
@[simp] theorem Block.raiseRptPend_hcCnt : b.raiseRptPend.hcCnt = b.hcCnt := rfl
@[simp] theorem Block.raiseRptPend_ovfCnt : b.raiseRptPend.ovfCnt = b.ovfCnt := rfl
@[simp] theorem Block.raiseRptPend_irLevel : b.raiseRptPend.irLevel = b.irLevel := rfl
@[simp] theorem Block.raiseRptPend_irLast : b.raiseRptPend.irLast = b.irLast := rfl
@[simp] theorem Block.raiseRptPend_acc : b.raiseRptPend.acc = b.acc := rfl
@[simp] theorem Block.raiseRptPend_bitCnt : b.raiseRptPend.bitCnt = b.bitCnt := rfl
@[simp] theorem Block.raiseRptPend_frame : b.raiseRptPend.frame = b.frame := rfl
@[simp] theorem Block.raiseRptPend_irIdle : b.raiseRptPend.irIdle = b.irIdle := rfl
@[simp] theorem Block.raiseRptPend_flags : b.raiseRptPend.flags = { b.flags with rptPend := true } := rfl

@[simp] theorem Block.dropRptPend_irState : b.dropRptPend.irState = b.irState := rfl
@[simp] theorem Block.dropRptPend_phaseAngle : b.dropRptPend.phaseAngle = b.phaseAngle := rfl
@[simp] theorem Block.dropRptPend_dlyCnt : b.dropRptPend.dlyCnt = b.dlyCnt := rfl
@[simp] theorem Block.dropRptPend_dlyArmed : b.dropRptPend.dlyArmed = b.dlyArmed := rfl
@[simp] theorem Block.dropRptPend_gate : b.dropRptPend.gate = b.gate := rfl
@[simp] theorem Block.dropRptPend_run : b.dropRptPend.run = b.run := rfl
@[simp] theorem Block.dropRptPend_level : b.dropRptPend.level = b.level := rfl
@[simp] theorem Block.dropRptPend_startReq : b.dropRptPend.startReq = b.startReq := rfl
@[simp] theorem Block.dropRptPend_kickCnt : b.dropRptPend.kickCnt = b.kickCnt := rfl
@[simp] theorem Block.dropRptPend_tbCnt : b.dropRptPend.tbCnt = b.tbCnt := rfl
@[simp] theorem Block.dropRptPend_hcCnt : b.dropRptPend.hcCnt = b.hcCnt := rfl
@[simp] theorem Block.dropRptPend_ovfCnt : b.dropRptPend.ovfCnt = b.ovfCnt := rfl
@[simp] theorem Block.dropRptPend_irLevel : b.dropRptPend.irLevel = b.irLevel := rfl
@[simp] theorem Block.dropRptPend_irLast : b.dropRptPend.irLast = b.irLast := rfl
@[simp] theorem Block.dropRptPend_acc : b.dropRptPend.acc = b.acc := rfl
@[simp] theorem Block.dropRptPend_bitCnt : b.dropRptPend.bitCnt = b.bitCnt := rfl
@[simp] theorem Block.dropRptPend_frame : b.dropRptPend.frame = b.frame := rfl
@[simp] theorem Block.dropRptPend_irIdle : b.dropRptPend.irIdle = b.irIdle := rfl
@[simp] theorem Block.dropRptPend_flags : b.dropRptPend.flags = { b.flags with rptPend := false } := rfl

@[simp] theorem Block.raiseOvfF_irState : b.raiseOvfF.irState = b.irState := rfl
@[simp] theorem Block.raiseOvfF_phaseAngle : b.raiseOvfF.phaseAngle = b.phaseAngle := rfl
@[simp] theorem Block.raiseOvfF_dlyCnt : b.raiseOvfF.dlyCnt = b.dlyCnt := rfl
@[simp] theorem Block.raiseOvfF_dlyArmed : b.raiseOvfF.dlyArmed = b.dlyArmed := rfl
@[simp] theorem Block.raiseOvfF_gate : b.raiseOvfF.gate = b.gate := rfl
@[simp] theorem Block.raiseOvfF_run : b.raiseOvfF.run = b.run := rfl
@[simp] theorem Block.raiseOvfF_level : b.raiseOvfF.level = b.level := rfl
@[simp] theorem Block.raiseOvfF_startReq : b.raiseOvfF.startReq = b.startReq := rfl
@[simp] theorem Block.raiseOvfF_kickCnt : b.raiseOvfF.kickCnt = b.kickCnt := rfl
@[simp] theorem Block.raiseOvfF_tbCnt : b.raiseOvfF.tbCnt = b.tbCnt := rfl
@[simp] theorem Block.raiseOvfF_hcCnt : b.raiseOvfF.hcCnt = b.hcCnt := rfl
@[simp] theorem Block.raiseOvfF_ovfCnt : b.raiseOvfF.ovfCnt = b.ovfCnt := rfl
@[simp] theorem Block.raiseOvfF_irLevel : b.raiseOvfF.irLevel = b.irLevel := rfl
@[simp] theorem Block.raiseOvfF_irLast : b.raiseOvfF.irLast = b.irLast := rfl
@[simp] theorem Block.raiseOvfF_acc : b.raiseOvfF.acc = b.acc := rfl
@[simp] theorem Block.raiseOvfF_bitCnt : b.raiseOvfF.bitCnt = b.bitCnt := rfl
@[simp] theorem Block.raiseOvfF_frame : b.raiseOvfF.frame = b.frame := rfl
@[simp] theorem Block.raiseOvfF_irIdle : b.raiseOvfF.irIdle = b.irIdle := rfl
@[simp] theorem Block.raiseOvfF_flags : b.raiseOvfF.flags = { b.flags with ovfF := true } := rfl

@[simp] theorem Block.raiseZcF_irState : b.raiseZcF.irState = b.irState := rfl
@[simp] theorem Block.raiseZcF_phaseAngle : b.raiseZcF.phaseAngle = b.phaseAngle := rfl
@[simp] theorem Block.raiseZcF_dlyCnt : b.raiseZcF.dlyCnt = b.dlyCnt := rfl
@[simp] theorem Block.raiseZcF_dlyArmed : b.raiseZcF.dlyArmed = b.dlyArmed := rfl
@[simp] theorem Block.raiseZcF_gate : b.raiseZcF.gate = b.gate := rfl
@[simp] theorem Block.raiseZcF_run : b.raiseZcF.run = b.run := rfl
@[simp] theorem Block.raiseZcF_level : b.raiseZcF.level = b.level := rfl
@[simp] theorem Block.raiseZcF_startReq : b.raiseZcF.startReq = b.startReq := rfl
@[simp] theorem Block.raiseZcF_kickCnt : b.raiseZcF.kickCnt = b.kickCnt := rfl
@[simp] theorem Block.raiseZcF_tbCnt : b.raiseZcF.tbCnt = b.tbCnt := rfl
@[simp] theorem Block.raiseZcF_hcCnt : b.raiseZcF.hcCnt = b.hcCnt := rfl
@[simp] theorem Block.raiseZcF_ovfCnt : b.raiseZcF.ovfCnt = b.ovfCnt := rfl
@[simp] theorem Block.raiseZcF_irLevel : b.raiseZcF.irLevel = b.irLevel := rfl
@[simp] theorem Block.raiseZcF_irLast : b.raiseZcF.irLast = b.irLast := rfl
@[simp] theorem Block.raiseZcF_acc : b.raiseZcF.acc = b.acc := rfl
@[simp] theorem Block.raiseZcF_bitCnt : b.raiseZcF.bitCnt = b.bitCnt := rfl
@[simp] theorem Block.raiseZcF_frame : b.raiseZcF.frame = b.frame := rfl
@[simp] theorem Block.raiseZcF_irIdle : b.raiseZcF.irIdle = b.irIdle := rfl
@[simp] theorem Block.raiseZcF_flags : b.raiseZcF.flags = { b.flags with zcF := true } := rfl

@[simp] theorem decoderReset_irState : (decoderReset b).irState = .idle := rfl
@[simp] theorem decoderReset_phaseAngle : (decoderReset b).phaseAngle = b.phaseAngle := rfl
@[simp] theorem decoderReset_dlyCnt : (decoderReset b).dlyCnt = b.dlyCnt := rfl
@[simp] theorem decoderReset_dlyArmed : (decoderReset b).dlyArmed = b.dlyArmed := rfl
@[simp] theorem decoderReset_gate : (decoderReset b).gate = b.gate := rfl
@[simp] theorem decoderReset_run : (decoderReset b).run = b.run := rfl
@[simp] theorem decoderReset_level : (decoderReset b).level = b.level := rfl
@[simp] theorem decoderReset_startReq : (decoderReset b).startReq = b.startReq := rfl
@[simp] theorem decoderReset_kickCnt : (decoderReset b).kickCnt = b.kickCnt := rfl
@[simp] theorem decoderReset_tbCnt : (decoderReset b).tbCnt = b.tbCnt := rfl
@[simp] theorem decoderReset_hcCnt : (decoderReset b).hcCnt = b.hcCnt := rfl
@[simp] theorem decoderReset_ovfCnt : (decoderReset b).ovfCnt = b.ovfCnt := rfl
@[simp] theorem decoderReset_irLevel : (decoderReset b).irLevel = b.irLevel := rfl
@[simp] theorem decoderReset_irLast : (decoderReset b).irLast = b.irLast := rfl
@[simp] theorem decoderReset_acc : (decoderReset b).acc = b.acc := rfl
@[simp] theorem decoderReset_bitCnt : (decoderReset b).bitCnt = 0 := rfl
@[simp] theorem decoderReset_frame : (decoderReset b).frame = b.frame := rfl
@[simp] theorem decoderReset_irIdle : (decoderReset b).irIdle = b.irIdle := rfl
@[simp] theorem decoderReset_flags : (decoderReset b).flags = b.flags := rfl

end BlockUpdates

section EdgeUpdates

variable (e : Edge) (st : IrState) (cause : SoftError)

@[simp] theorem raiseSoftError_block : (raiseSoftError cause e).block = e.block := rfl
@[simp] theorem raiseSoftError_lvl : (raiseSoftError cause e).lvl = e.lvl := rfl
@[simp] theorem raiseSoftError_iv : (raiseSoftError cause e).iv = e.iv := rfl
@[simp] theorem raiseSoftError_err : (raiseSoftError cause e).err = some cause := rfl
@[simp] theorem takeSoftError_eq : takeSoftError e = decoderReset e.block := rfl

end EdgeUpdates

end Sys2Proof.Machine
end

