-- ==== Sys2Proof/Laws/Decoder.lean ====
section
/-! SUPPORT. Laws/Decoder.lean: what an infrared edge does, state by state (`43_ir_decoder.md` R208 to R217), for every
configuration; callers cite these and do not unfold the three parts of an edge. -/

namespace Sys2Proof.Machine

section EdgeUpdates

variable (c : Config) (e : Edge) (st : IrState) (ok : Bool) (cause : SoftError) (lvl : Bool) (b : Block)

@[simp] theorem edgePrologue_block :
    (edgePrologue c lvl b).block = { b with irLast := b.tbCnt, irLevel := lvl, irIdle := 0 } := rfl
@[simp] theorem edgePrologue_lvl : (edgePrologue c lvl b).lvl = lvl := rfl
@[simp] theorem edgePrologue_iv : (edgePrologue c lvl b).iv = interval c b := rfl
@[simp] theorem edgePrologue_err : (edgePrologue c lvl b).err = none := rfl
@[simp] theorem Edge.goto_block : (e.goto st).block = { e.block with irState := st } := rfl
@[simp] theorem Edge.goto_iv : (e.goto st).iv = e.iv := rfl
@[simp] theorem Edge.goto_err : (e.goto st).err = e.err := rfl
@[simp] theorem Edge.require_block : (e.require ok cause).block = e.block := by cases ok <;> rfl
@[simp] theorem Edge.require_iv : (e.require ok cause).iv = e.iv := by cases ok <;> rfl
@[simp] theorem Edge.require_err : (e.require ok cause).err = if ok then e.err else some cause := by cases ok <;> rfl

end EdgeUpdates

/-- `within` as a proposition. -/
theorem within_iff (lo hi : Nat) (iv : Ticks) : within lo hi iv = true ↔ lo ≤ iv.toNat ∧ iv.toNat ≤ hi := by
  simp [within]

section Edges

variable (c : Config) (lvl : Bool) (b : Block)

/-- An `IRA` in Idle (R208). -/
theorem irEdge_idle_active (h : b.irState = .idle) (hf : 0 < c.frameBits) :
    irEdge c true b = { b with irLast := b.tbCnt, irLevel := true, irIdle := 0, acc := 0, bitCnt := 0, irState := .mark } := by
  simp [irEdge, stateRule, h, ruleIdle, edgeEpilogue, hf.ne]

/-- An `IRI` in Idle (R208). -/
theorem irEdge_idle_inactive (h : b.irState = .idle) (hn : b.bitCnt.toNat < c.frameBits) :
    irEdge c false b = { b with irLast := b.tbCnt, irLevel := false, irIdle := 0 } := by
  simp [irEdge, stateRule, h, ruleIdle, edgeEpilogue, hn.ne]

/-- An edge in Mark (R209, R217). -/
theorem irEdge_mark (h : b.irState = .mark) (hn : b.bitCnt.toNat < c.frameBits) :
    irEdge c lvl b =
      if c.markMin ≤ (interval c b).toNat
      then { b with irLast := b.tbCnt, irLevel := lvl, irIdle := 0, irState := .space }
      else { b with irLast := b.tbCnt, irLevel := lvl, irIdle := 0, irState := .idle, bitCnt := 0 } := by
  by_cases hm : c.markMin ≤ (interval c b).toNat <;>
    simp [irEdge, stateRule, h, ruleMark, edgeEpilogue, hm, hn.ne, decoderReset]

/-- An edge in Space (R210). -/
theorem irEdge_space (h : b.irState = .space) (hn : b.bitCnt.toNat < c.frameBits) :
    irEdge c lvl b =
      { b with irLast := b.tbCnt, irLevel := lvl, irIdle := 0,
               irState := if (interval c b).toNat < c.spaceRpt then .repeatFrame else .highBit } := by
  by_cases hs : (interval c b).toNat < c.spaceRpt <;>
    simp [irEdge, stateRule, h, ruleSpace, edgeEpilogue, hn.ne, hs]

/-- An edge in HighBit (R211, R217). -/
theorem irEdge_highBit (h : b.irState = .highBit) (hn : b.bitCnt.toNat < c.frameBits) :
    irEdge c lvl b =
      if within c.bitMin c.bitMax (interval c b)
      then { b with irLast := b.tbCnt, irLevel := lvl, irIdle := 0, irState := .lowBit }
      else { b with irLast := b.tbCnt, irLevel := lvl, irIdle := 0, irState := .idle, bitCnt := 0 } := by
  cases hw : within c.bitMin c.bitMax (interval c b) <;>
    simp [irEdge, stateRule, h, ruleHighBit, edgeEpilogue, hw, hn.ne, decoderReset]

/-- An edge in LowBit (R212, R213, R215, R217): error, completion, or the next bit. -/
theorem irEdge_lowBit (h : b.irState = .lowBit) :
    irEdge c lvl b =
      if within c.lowMin c.lowMax (interval c b) = false then
        { b with irLast := b.tbCnt, irLevel := lvl, irIdle := 0,
                 acc := shiftIn c.accDir b.acc (decodedBit c (interval c b)), irState := .idle, bitCnt := 0 }
      else if (b.bitCnt + 1).toNat = c.frameBits then
        { b with irLast := b.tbCnt, irLevel := lvl, irIdle := 0,
                 acc := shiftIn c.accDir b.acc (decodedBit c (interval c b)), irState := .idle, bitCnt := 0,
                 frame := shiftIn c.accDir b.acc (decodedBit c (interval c b)),
                 flags := { b.flags with frameRdy := true } }
      else
        { b with irLast := b.tbCnt, irLevel := lvl, irIdle := 0,
                 acc := shiftIn c.accDir b.acc (decodedBit c (interval c b)), irState := .highBit,
                 bitCnt := b.bitCnt + 1 } := by
  cases hw : within c.lowMin c.lowMax (interval c b)
  · simp [irEdge, stateRule, h, ruleLowBit, edgeEpilogue, hw, takeBit, decoderReset]
  · by_cases hb : (b.bitCnt + 1).toNat = c.frameBits
    · simp only [irEdge, stateRule, edgePrologue_block, h, ruleLowBit, edgeEpilogue, takeBit, Edge.goto_err,
        Edge.goto_block, Edge.require_block, edgePrologue_iv, hb]
      simp [hw, completeFrame, decoderReset, Block.raiseFrameRdy]
    · simp only [irEdge, stateRule, edgePrologue_block, h, ruleLowBit, edgeEpilogue, takeBit, Edge.goto_err,
        Edge.goto_block, Edge.require_block, edgePrologue_iv, hb]
      simp [hw]

/-- An edge in Repeat (R214, R217). -/
theorem irEdge_repeatFrame (h : b.irState = .repeatFrame) (hn : b.bitCnt.toNat < c.frameBits) :
    irEdge c lvl b =
      if within c.bitMin c.bitMax (interval c b)
      then { b with irLast := b.tbCnt, irLevel := lvl, irIdle := 0, irState := .idle,
                    flags := { b.flags with rptPend := true } }
      else { b with irLast := b.tbCnt, irLevel := lvl, irIdle := 0, irState := .idle, bitCnt := 0 } := by
  cases hw : within c.bitMin c.bitMax (interval c b) <;>
    simp [irEdge, stateRule, h, ruleRepeat, edgeEpilogue, hw, hn.ne, decoderReset, Block.raiseRptPend]

end Edges

end Sys2Proof.Machine
end

