-- ==== Sys2Proof/Laws/Firing.lean ====
section
/-! SUPPORT. Laws/Firing.lean: what the shared operations of the firing engine, the mapper and the timebase do, said once
each (`40_firing_engine.md`, `41_speed_mapper.md`, `42_timebase.md`). -/

namespace Sys2Proof.Machine

/-- Driving the gate to the value it has changes nothing (`00_scope.md` R15). -/
theorem State.driveGate_same (s : State) : s.driveGate s.block.gate = s := by simp [State.driveGate]

/-- Driving the gate to the other value appends it to the gate trace (R15). -/
theorem State.driveGate_change (v : Bool) (s : State) (h : v ≠ s.block.gate) :
    s.driveGate v = { s with block := { s.block with gate := v }, gateTrace := s.gateTrace ++ [v] } := by
  simp [State.driveGate, h]

section Firing

variable (c : Config) (s : State)

/-- `DT` while the timer is idle (R153). -/
theorem delayTick_idle (h : s.block.dlyArmed = false) : delayTick s = s := by simp [delayTick, h]

/-- `DT` while the timer counts (R153). -/
theorem delayTick_count (h : s.block.dlyArmed = true) (hc : s.block.dlyCnt ≠ 0) :
    delayTick s = { s with block := { s.block with dlyCnt := s.block.dlyCnt - 1 } } := by
  rw [delayTick, if_pos h, if_neg hc]; rfl

/-- The block after the expiry (R154). -/
theorem expiry_block : (expiry s).block = { s.block with dlyArmed := false, gate := false } := by
  cases hr : s.block.run <;> simp [expiry, hr]

/-- The gate trace after the expiry (R154). -/
theorem expiry_gateTrace :
    (expiry s).gateTrace =
      s.gateTrace ++ (if s.block.gate then [false] else if s.block.run then [true, false] else []) := by
  cases hr : s.block.run <;> cases hg : s.block.gate <;> simp [expiry, hr, hg]

/-- The expiry touches neither the reads nor the stimuli. -/
theorem expiry_other : (expiry s).readTrace = s.readTrace ∧ (expiry s).stimuli = s.stimuli := by
  cases hr : s.block.run <;> simp [expiry, hr]

/-- `DT` that finds the armed timer at 0 (R153, R154). -/
theorem delayTick_expiry (h : s.block.dlyArmed = true) (hc : s.block.dlyCnt = 0) : delayTick s = expiry s := by
  simp [delayTick, h, hc]

/-- The gate trace after `ZC` (R152). -/
theorem zeroCross_gateTrace :
    (zeroCross c s).gateTrace =
      if s.block.gate = false ∧ atFullSpeed c s.block = true then s.gateTrace ++ [true] else s.gateTrace := by
  have ha : atFullSpeed c (reloadDelay (countHalfCycle s.block)) = atFullSpeed c s.block := rfl
  have hg : (reloadDelay (countHalfCycle s.block)).gate = s.block.gate := rfl
  cases h : atFullSpeed c s.block <;> cases hb : s.block.gate <;> simp [zeroCross, forceConduction, ha, h, hg, hb]

/-- The gate after `ZC` (R152). -/
theorem kickCountdown_gate (b : Block) : (kickCountdown c b).gate = b.gate := by
  unfold kickCountdown; split <;> rfl

/-- The block after `ZC` (R150). -/
theorem zeroCross_block :
    (zeroCross c s).block =
      kickCountdown c
        { s.block with
          hcCnt := s.block.hcCnt + 1
          flags := { s.block.flags with zcF := true }
          dlyCnt := s.block.phaseAngle
          dlyArmed := true
          gate := s.block.gate || atFullSpeed c s.block } := by
  have ha : atFullSpeed c (reloadDelay (countHalfCycle s.block)) = atFullSpeed c s.block := rfl
  cases h : atFullSpeed c s.block <;> simp only [zeroCross, forceConduction, State.mapBlock_block, ha, h] <;>
    simp [reloadDelay, countHalfCycle, Block.raiseZcF]

/-- `ZC` touches neither the reads nor the stimuli. -/
theorem zeroCross_other : (zeroCross c s).readTrace = s.readTrace ∧ (zeroCross c s).stimuli = s.stimuli := by
  simp only [zeroCross, forceConduction]; split <;> simp

/-- The kick-start countdown (R176). -/
theorem kickCountdown_eq (b : Block) :
    kickCountdown c b =
      { b with
        kickCnt := if b.kickCnt = 0 then 0 else b.kickCnt - 1
        phaseAngle := if b.kickCnt = 1 then lutAt c b.level else b.phaseAngle } := by
  by_cases h0 : b.kickCnt = 0
  · have hk : kickBit b = false := by simp [kickBit, h0]
    have h1 : b.kickCnt ≠ 1 := by rw [h0]; decide
    rw [kickCountdown, hk, if_pos h0, if_neg h1, ← h0]; rfl
  · have hk : kickBit b = true := decide_eq_true h0
    have h1 : b.kickCnt - 1 = 0 ↔ b.kickCnt = 1 := by constructor <;> intro h <;> bv_omega
    simp only [kickCountdown, hk, if_true, if_neg h0, h1]

/-- At the width of 16 bits a tick count is itself. -/
theorem Config.tick_of_width (h : c.tbWidth = 16) (t : Ticks) : c.tick t = t := by
  have : t.toNat % 2 ^ c.tbWidth = t.toNat := Nat.mod_eq_of_lt (by rw [h]; exact t.isLt)
  rw [Config.tick, this]; simp

/-- The machine's ticks are counts of 16 bits. -/
@[simp] theorem Config.machine_tick (t : Ticks) : Config.machine.tick t = t := Config.tick_of_width _ rfl t

/-- The value of a tick count. -/
theorem Config.tick_toNat (t : Ticks) : (c.tick t).toNat = t.toNat % 2 ^ c.tbWidth := by
  simp only [Config.tick, BitVec.toNat_ofNat]
  exact Nat.mod_eq_of_lt (lt_of_le_of_lt (Nat.mod_le _ _) t.isLt)

/-- `TB` that does not wrap (R191). -/
theorem timebaseTick_count (b : Block) (h : c.tick (b.tbCnt + 1) ≠ 0) :
    timebaseTick c b = { b with tbCnt := c.tick (b.tbCnt + 1) } := by
  simp only [timebaseTick, if_neg h]

/-- `TB` that wraps: the overflow tick and the inactivity window (R193, R194). -/
theorem timebaseTick_wrap (b : Block) (h : c.tick (b.tbCnt + 1) = 0) :
    timebaseTick c b =
      { b with
        tbCnt := 0
        ovfCnt := b.ovfCnt + 1
        irIdle := BitVec.ofNat 2 (saturatedIdle c b)
        flags :=
          { b.flags with
            ovfF := true
            rptPend := b.flags.rptPend && !decide (c.irIdleTicks.toNat ≤ saturatedIdle c b) } } := by
  have hs : ∀ b' : Block, b'.irIdle = b.irIdle → saturatedIdle c b' = saturatedIdle c b := fun b' hb => by
    simp [saturatedIdle, hb]
  by_cases hw : c.irIdleTicks.toNat ≤ saturatedIdle c b <;>
    simp only [timebaseTick, h, if_true, inactivityWindow] <;>
    simp [overflowTick, Block.raiseOvfF, Block.dropRptPend, hs, hw]

/-- The gate trace after `RST` (`70_reset_and_hazards.md` R350). -/
theorem resetOp_gateTrace :
    (resetOp c s).gateTrace = if s.block.gate then s.gateTrace ++ [false] else s.gateTrace := by
  cases h : s.block.gate <;> simp [resetOp, h]

@[simp] theorem resetOp_block : (resetOp c s).block = Block.reset c := rfl
@[simp] theorem resetOp_readTrace : (resetOp c s).readTrace = s.readTrace := rfl
@[simp] theorem resetOp_stimuli : (resetOp c s).stimuli = s.stimuli := rfl

end Firing

end Sys2Proof.Machine
end

