-- ==== Sys2Proof/Laws/Halves.lean ====
section
/-! SUPPORT. Laws/Halves.lean: which half of the block the shared operations leave alone (`43_ir_decoder.md` R229). -/

namespace Sys2Proof.Machine

variable (c : Config) (e : Edge) (lvl : Bool) (b : Block)

theorem stateRule_firingHalf : (stateRule c e).block.firingHalf = e.block.firingHalf := by
  unfold stateRule ruleIdle ruleMark ruleSpace ruleHighBit ruleLowBit ruleRepeat takeBit
  split
  · split <;> rfl
  · simp [Block.firingHalf]
  · simp [Block.firingHalf]
  · simp [Block.firingHalf]
  · simp [Block.firingHalf]
  · cases within c.bitMin c.bitMax e.iv <;> simp [Block.firingHalf]

theorem edgeEpilogue_firingHalf : (edgeEpilogue c e).firingHalf = e.block.firingHalf := by
  unfold edgeEpilogue completeFrame
  split
  · rfl
  · split <;> rfl

/-- An infrared edge leaves the firing engine's half alone. -/
theorem irEdge_firingHalf : (irEdge c lvl b).firingHalf = b.firingHalf := by
  rw [irEdge, edgeEpilogue_firingHalf, stateRule_firingHalf]; rfl

theorem stateRule_tbCnt : (stateRule c e).block.tbCnt = e.block.tbCnt := by
  unfold stateRule ruleIdle ruleMark ruleSpace ruleHighBit ruleLowBit ruleRepeat takeBit
  split
  · split <;> rfl
  · simp
  · simp
  · simp
  · simp
  · cases within c.bitMin c.bitMax e.iv <;> simp

/-- An infrared edge reads the timebase and leaves it alone (`42_timebase.md` R199). -/
theorem irEdge_tbCnt : (irEdge c lvl b).tbCnt = b.tbCnt := by
  have h : ∀ e', (edgeEpilogue c e').tbCnt = e'.block.tbCnt := fun e' => by
    unfold edgeEpilogue completeFrame
    split
    · rfl
    · split <;> rfl
  rw [irEdge, h, stateRule_tbCnt]; rfl

/-- A timebase tick leaves the firing engine's half alone. -/
theorem timebaseTick_firingHalf : (timebaseTick c b).firingHalf = b.firingHalf := by
  by_cases h : c.tick (b.tbCnt + 1) = 0
  · rw [timebaseTick_wrap c b h]; rfl
  · rw [timebaseTick_count c b h]; rfl

/-- `ZC` leaves the decoder's half alone. -/
theorem zeroCross_decoderHalf (s : State) : (zeroCross c s).block.decoderHalf = s.block.decoderHalf := by
  rw [zeroCross_block, kickCountdown_eq]; rfl

/-- `DT` leaves the decoder's half alone. -/
theorem delayTick_decoderHalf (s : State) : (delayTick s).block.decoderHalf = s.block.decoderHalf := by
  cases ha : s.block.dlyArmed
  · rw [delayTick_idle s ha]
  · by_cases hz : s.block.dlyCnt = 0
    · rw [delayTick_expiry s ha hz, expiry_block]; rfl
    · rw [delayTick_count s ha hz]; rfl

/-- The mapper leaves the decoder's half alone. -/
theorem applyLevel_decoderHalf (d : Byte) : (applyLevel c d b).decoderHalf = b.decoderHalf := by
  unfold applyLevel
  dsimp only
  split
  · rfl
  · split
    · rfl
    · split
      · rfl
      · split <;> rfl

/-- The gate, its timer and the counter are no business of the mapper (`41_speed_mapper.md` R173). -/
theorem applyLevel_firing (d : Byte) :
    (applyLevel c d b).gate = b.gate ∧ (applyLevel c d b).dlyCnt = b.dlyCnt
      ∧ (applyLevel c d b).dlyArmed = b.dlyArmed ∧ (applyLevel c d b).hcCnt = b.hcCnt
      ∧ (applyLevel c d b).flags = b.flags := by
  unfold applyLevel
  dsimp only
  split
  · exact ⟨rfl, rfl, rfl, rfl, rfl⟩
  · split
    · exact ⟨rfl, rfl, rfl, rfl, rfl⟩
    · split
      · exact ⟨rfl, rfl, rfl, rfl, rfl⟩
      · split <;> exact ⟨rfl, rfl, rfl, rfl, rfl⟩

end Sys2Proof.Machine
end

