-- ==== Sys2Proof/Laws/HostStore.lean ====
section
/-! SUPPORT. Laws/HostStore.lean: read after write, and the canonical form, for the persistent store of the host. -/

namespace Sys2Proof.Machine

theorem readCells_dropCell (j k : Nat) (l : List Host.Cell) :
    readCells j (dropCell k l) = if j = k then storeUnused else readCells j l := by
  induction l with
  | nil => simp [dropCell, readCells]
  | cons p rest ih =>
    obtain ⟨a, v⟩ := p
    by_cases hk : k = a
    · subst hk; rw [dropCell, if_pos rfl, ih, readCells]
      split <;> simp_all
    · rw [dropCell, if_neg hk, readCells, readCells, ih]
      split <;> split <;> simp_all

theorem mem_dropCell {k : Nat} {l : List Host.Cell} {p : Host.Cell} (h : p ∈ dropCell k l) : p ∈ l ∧ p.1 ≠ k := by
  induction l with
  | nil => simp [dropCell] at h
  | cons q rest ih =>
    obtain ⟨a, v⟩ := q
    rw [dropCell] at h
    split at h
    · exact ⟨List.mem_cons_of_mem _ (ih h).1, (ih h).2⟩
    · rename_i hk
      rcases List.mem_cons.1 h with rfl | h
      · exact ⟨List.mem_cons_self, fun h => hk h.symm⟩
      · exact ⟨List.mem_cons_of_mem _ (ih h).1, (ih h).2⟩

theorem pairwise_dropCell (k : Nat) (l : List Host.Cell) (h : l.Pairwise (fun p q => p.1 < q.1)) :
    (dropCell k l).Pairwise (fun p q => p.1 < q.1) := by
  induction l with
  | nil => exact h
  | cons q rest ih =>
    obtain ⟨a, v⟩ := q
    rw [List.pairwise_cons] at h
    rw [dropCell]
    split
    · exact ih h.2
    · exact List.pairwise_cons.2 ⟨fun p hp => h.1 p (mem_dropCell hp).1, ih h.2⟩

theorem readCells_putCell (j k : Nat) (w : Byte) (l : List Host.Cell) (h : ∀ p ∈ l, p.1 ≠ k) :
    readCells j (putCell k w l) = if j = k then w else readCells j l := by
  induction l with
  | nil => simp [putCell, readCells]
  | cons p rest ih =>
    obtain ⟨a, v⟩ := p
    have ha : a ≠ k := h (a, v) List.mem_cons_self
    rw [putCell]
    split
    · simp [readCells]
    · rw [readCells, readCells, ih fun p hp => h p (List.mem_cons_of_mem _ hp)]
      split <;> split <;> simp_all

theorem mem_putCell {k : Nat} {w : Byte} {l : List Host.Cell} {p : Host.Cell} (h : p ∈ putCell k w l) :
    p = (k, w) ∨ p ∈ l := by
  induction l with
  | nil => simpa [putCell] using h
  | cons q rest ih =>
    obtain ⟨a, v⟩ := q
    rw [putCell] at h
    split at h
    · exact List.mem_cons.1 h
    · rcases List.mem_cons.1 h with rfl | h
      · exact .inr List.mem_cons_self
      · exact (ih h).imp id (List.mem_cons_of_mem _)

theorem pairwise_putCell (k : Nat) (w : Byte) (l : List Host.Cell) (h : l.Pairwise (fun p q => p.1 < q.1))
    (hk : ∀ p ∈ l, p.1 ≠ k) : (putCell k w l).Pairwise (fun p q => p.1 < q.1) := by
  induction l with
  | nil => simp [putCell]
  | cons q rest ih =>
    obtain ⟨a, v⟩ := q
    have ha : a ≠ k := hk (a, v) List.mem_cons_self
    have hr := List.pairwise_cons.1 h
    rw [putCell]
    split
    · rename_i hlt
      refine List.pairwise_cons.2 ⟨fun p hp => ?_, h⟩
      rcases List.mem_cons.1 hp with rfl | hp
      · exact hlt
      · exact hlt.trans (hr.1 p hp)
    · refine List.pairwise_cons.2 ⟨fun p hp => ?_, ih hr.2 fun p hp => hk p (List.mem_cons_of_mem _ hp)⟩
      rcases mem_putCell hp with rfl | hp
      · show a < k; omega
      · exact hr.1 p hp

/-- A write gives its byte at its offset and leaves every other offset alone (R296). -/
theorem Store.read_write (t : Store) (k j : Nat) (v : Byte) :
    (t.write (k, v)).read j = if j = k then v else t.read j := by
  rw [Store.write]
  split
  · rename_i hv
    have hv : v = storeUnused := hv
    rw [Store.read, readCells_dropCell, hv]; rfl
  · rw [Store.read, readCells_putCell _ _ _ _ fun p hp => (mem_dropCell hp).2, readCells_dropCell]
    split <;> rfl

/-- A write keeps the canonical form. -/
theorem Store.wf_write (t : Store) (cell : Host.Cell) (h : t.wf) : (t.write cell).wf := by
  have hd := pairwise_dropCell cell.1 _ h.1
  have hm : ∀ p ∈ dropCell cell.1 t.cells, p.2 ≠ storeUnused := fun p hp => h.2 p (mem_dropCell hp).1
  rw [Store.write]
  split
  · exact ⟨hd, hm⟩
  · rename_i hv
    refine ⟨pairwise_putCell _ _ _ hd fun p hp => (mem_dropCell hp).2, fun p hp => ?_⟩
    rcases mem_putCell hp with rfl | hp
    · exact hv
    · exact hm p hp

/-- Compare and write keeps the canonical form. -/
theorem Store.wf_update (dirty : Bool) (new : Record) (t : Store) (h : t.wf) : (t.update dirty new).wf := by
  rw [Store.update]
  generalize storeWrites dirty t.record new = ws
  induction ws generalizing t with
  | nil => exact h
  | cons w ws ih => exact ih _ (t.wf_write w h)

/-- Compare and write leaves the offsets from 3 on alone (R294, R296). -/
theorem Store.read_update_rest (dirty : Bool) (new : Record) (t : Store) (j : Nat) (h : 3 ≤ j) :
    (t.update dirty new).read j = t.read j := by
  have h0 : j ≠ 0 := by omega
  have h1 : j ≠ 1 := by omega
  have h2 : j ≠ 2 := by omega
  simp only [Store.update, storeWrites]
  (repeat' split) <;> simp [Store.read_write, h0, h1, h2]

/-- The factory image is canonical. -/
theorem Store.wf_factory : Store.factory.wf := by decide

end Sys2Proof.Machine
end

