-- ==== Sys2Proof/Laws/PerInstr.lean ====
section
/-! SUPPORT. Laws/PerInstr.lean: statements about every operation as syntax, one lemma per constructor. -/

namespace Sys2Proof

/-- The match and mask of the operation's row in spec/opcode_table.json (`30_encoding.md` R123): the row is selected by a
word `w` iff `w AND mask = match`. -/
def tableRow : Instr → OpWord × OpWord
  | .rst => (0x0000, 0xFFFF)
  | .zc => (0x1000, 0xFFFF)
  | .dt => (0x2000, 0xFFFF)
  | .tb => (0x3000, 0xFFFF)
  | .iri => (0x4000, 0xFFFF)
  | .ira => (0x4001, 0xFFFF)
  | .rdLevel => (0x8000, 0xFFFF)
  | .rdCtrl => (0x8100, 0xFFFF)
  | .rdAngle => (0x8200, 0xFFFF)
  | .rdStatus => (0x8300, 0xFFFF)
  | .rdFlags => (0x8400, 0xFFFF)
  | .rdHccnt => (0x8500, 0xFFFF)
  | .rdOvfcnt => (0x8600, 0xFFFF)
  | .rdIrstat => (0x8700, 0xFFFF)
  | .rdFrame0 => (0x8800, 0xFFFF)
  | .rdFrame1 => (0x8900, 0xFFFF)
  | .rdFrame2 => (0x8A00, 0xFFFF)
  | .rdFrame3 => (0x8B00, 0xFFFF)
  | .rdRsvc => (0x8C00, 0xFFFF)
  | .rdRsvd => (0x8D00, 0xFFFF)
  | .rdRsve => (0x8E00, 0xFFFF)
  | .rdRsvf => (0x8F00, 0xFFFF)
  | .wrLevel _ => (0x9000, 0xFF00)
  | .wrCtrl _ => (0x9100, 0xFF00)
  | .wrAngle _ => (0x9200, 0xFF00)
  | .wrStatus _ => (0x9300, 0xFF00)
  | .wrFlags _ => (0x9400, 0xFF00)
  | .wrHccnt _ => (0x9500, 0xFF00)
  | .wrOvfcnt _ => (0x9600, 0xFF00)
  | .wrIrstat _ => (0x9700, 0xFF00)
  | .wrFrame0 _ => (0x9800, 0xFF00)
  | .wrFrame1 _ => (0x9900, 0xFF00)
  | .wrFrame2 _ => (0x9A00, 0xFF00)
  | .wrFrame3 _ => (0x9B00, 0xFF00)
  | .wrRsvc _ => (0x9C00, 0xFF00)
  | .wrRsvd _ => (0x9D00, 0xFF00)
  | .wrRsve _ => (0x9E00, 0xFF00)
  | .wrRsvf _ => (0x9F00, 0xFF00)

/-- Masking the data byte of a format HB word leaves its class and its address. -/
theorem formatHB_and_mask (k : BitVec 4) (r : Reg) (d : Byte) :
    formatHB k r d &&& 0xFF00 = k.setWidth 16 <<< 12 ||| r.addr.setWidth 16 <<< 8 := by
  apply BitVec.eq_of_getLsbD_eq
  intro i hi
  interval_cases i <;> simp [formatHB]

namespace Laws.EncodingMatchesTable

/-- The operation's word selects the operation's row of the table. -/
def Statement (i : Instr) : Prop := encode i &&& (tableRow i).2 = (tableRow i).1

theorem rst : Statement .rst := by unfold Statement; decide

theorem zc : Statement .zc := by unfold Statement; decide

theorem dt : Statement .dt := by unfold Statement; decide

theorem tb : Statement .tb := by unfold Statement; decide

theorem iri : Statement .iri := by unfold Statement; decide

theorem ira : Statement .ira := by unfold Statement; decide

theorem rdLevel : Statement .rdLevel := by unfold Statement; decide

theorem rdCtrl : Statement .rdCtrl := by unfold Statement; decide

theorem rdAngle : Statement .rdAngle := by unfold Statement; decide

theorem rdStatus : Statement .rdStatus := by unfold Statement; decide

theorem rdFlags : Statement .rdFlags := by unfold Statement; decide

theorem rdHccnt : Statement .rdHccnt := by unfold Statement; decide

theorem rdOvfcnt : Statement .rdOvfcnt := by unfold Statement; decide

theorem rdIrstat : Statement .rdIrstat := by unfold Statement; decide

theorem rdFrame0 : Statement .rdFrame0 := by unfold Statement; decide

theorem rdFrame1 : Statement .rdFrame1 := by unfold Statement; decide

theorem rdFrame2 : Statement .rdFrame2 := by unfold Statement; decide

theorem rdFrame3 : Statement .rdFrame3 := by unfold Statement; decide

theorem rdRsvc : Statement .rdRsvc := by unfold Statement; decide

theorem rdRsvd : Statement .rdRsvd := by unfold Statement; decide

theorem rdRsve : Statement .rdRsve := by unfold Statement; decide

theorem rdRsvf : Statement .rdRsvf := by unfold Statement; decide

theorem wrLevel (data : Byte) : Statement (.wrLevel data) := (formatHB_and_mask _ _ _).trans rfl

theorem wrCtrl (data : Byte) : Statement (.wrCtrl data) := (formatHB_and_mask _ _ _).trans rfl

theorem wrAngle (data : Byte) : Statement (.wrAngle data) := (formatHB_and_mask _ _ _).trans rfl

theorem wrStatus (data : Byte) : Statement (.wrStatus data) := (formatHB_and_mask _ _ _).trans rfl

theorem wrFlags (data : Byte) : Statement (.wrFlags data) := (formatHB_and_mask _ _ _).trans rfl

theorem wrHccnt (data : Byte) : Statement (.wrHccnt data) := (formatHB_and_mask _ _ _).trans rfl

theorem wrOvfcnt (data : Byte) : Statement (.wrOvfcnt data) := (formatHB_and_mask _ _ _).trans rfl

theorem wrIrstat (data : Byte) : Statement (.wrIrstat data) := (formatHB_and_mask _ _ _).trans rfl

theorem wrFrame0 (data : Byte) : Statement (.wrFrame0 data) := (formatHB_and_mask _ _ _).trans rfl

theorem wrFrame1 (data : Byte) : Statement (.wrFrame1 data) := (formatHB_and_mask _ _ _).trans rfl

theorem wrFrame2 (data : Byte) : Statement (.wrFrame2 data) := (formatHB_and_mask _ _ _).trans rfl

theorem wrFrame3 (data : Byte) : Statement (.wrFrame3 data) := (formatHB_and_mask _ _ _).trans rfl

theorem wrRsvc (data : Byte) : Statement (.wrRsvc data) := (formatHB_and_mask _ _ _).trans rfl

theorem wrRsvd (data : Byte) : Statement (.wrRsvd data) := (formatHB_and_mask _ _ _).trans rfl

theorem wrRsve (data : Byte) : Statement (.wrRsve data) := (formatHB_and_mask _ _ _).trans rfl

theorem wrRsvf (data : Byte) : Statement (.wrRsvf data) := (formatHB_and_mask _ _ _).trans rfl

end Laws.EncodingMatchesTable

end Sys2Proof
end

