-- ==== Sys2Proof/Laws/Runs.lean ====
section
/-! SUPPORT. Laws/Runs.lean: the equations of `runOps` and of `perform`, and what the mapper and the writes leave alone. -/

namespace Sys2Proof.Machine

variable (c : Config) (s : State)

@[simp] theorem runOps_nil : runOps c [] s = s := rfl

@[simp] theorem runOps_cons (i : Instr) (ops : List Instr) : runOps c (i :: ops) s = runOps c ops (perform c i s) := rfl

theorem runOps_append (xs ys : List Instr) : runOps c (xs ++ ys) s = runOps c ys (runOps c xs s) := by
  simp [runOps, List.foldl_append]

/-- A property that every operation of a list keeps holds after the list. -/
theorem runOps_induction {P : State → Prop} (ops : List Instr)
    (step : ∀ i ∈ ops, ∀ t, P t → P (perform c i t)) (h : P s) : P (runOps c ops s) := by
  induction ops generalizing s with
  | nil => exact h
  | cons i ops ih => exact ih _ (fun j hj => step j (by simp [hj])) (step i (by simp) _ h)

/-- An operation is a hardware stimulus, a read or a write. -/
theorem Instr.cases_access (i : Instr) :
    i = .rst ∨ i = .zc ∨ i = .dt ∨ i = .tb ∨ (∃ lvl, i = edgeOp lvl) ∨ (∃ r : Reg, i = r.readOp)
      ∨ ∃ (r : Reg) (d : Byte), i = r.writeOp d := by
  cases i
  case rst => exact .inl rfl
  case zc => exact .inr (.inl rfl)
  case dt => exact .inr (.inr (.inl rfl))
  case tb => exact .inr (.inr (.inr (.inl rfl)))
  case iri => exact .inr (.inr (.inr (.inr (.inl ⟨false, rfl⟩))))
  case ira => exact .inr (.inr (.inr (.inr (.inl ⟨true, rfl⟩))))
  case rdLevel => exact .inr (.inr (.inr (.inr (.inr (.inl ⟨.level, rfl⟩)))))
  case rdCtrl => exact .inr (.inr (.inr (.inr (.inr (.inl ⟨.ctrl, rfl⟩)))))
  case rdAngle => exact .inr (.inr (.inr (.inr (.inr (.inl ⟨.angle, rfl⟩)))))
  case rdStatus => exact .inr (.inr (.inr (.inr (.inr (.inl ⟨.status, rfl⟩)))))
  case rdFlags => exact .inr (.inr (.inr (.inr (.inr (.inl ⟨.flags, rfl⟩)))))
  case rdHccnt => exact .inr (.inr (.inr (.inr (.inr (.inl ⟨.hccnt, rfl⟩)))))
  case rdOvfcnt => exact .inr (.inr (.inr (.inr (.inr (.inl ⟨.ovfcnt, rfl⟩)))))
  case rdIrstat => exact .inr (.inr (.inr (.inr (.inr (.inl ⟨.irstat, rfl⟩)))))
  case rdFrame0 => exact .inr (.inr (.inr (.inr (.inr (.inl ⟨.frame0, rfl⟩)))))
  case rdFrame1 => exact .inr (.inr (.inr (.inr (.inr (.inl ⟨.frame1, rfl⟩)))))
  case rdFrame2 => exact .inr (.inr (.inr (.inr (.inr (.inl ⟨.frame2, rfl⟩)))))
  case rdFrame3 => exact .inr (.inr (.inr (.inr (.inr (.inl ⟨.frame3, rfl⟩)))))
  case rdRsvc => exact .inr (.inr (.inr (.inr (.inr (.inl ⟨.rsvc, rfl⟩)))))
  case rdRsvd => exact .inr (.inr (.inr (.inr (.inr (.inl ⟨.rsvd, rfl⟩)))))
  case rdRsve => exact .inr (.inr (.inr (.inr (.inr (.inl ⟨.rsve, rfl⟩)))))
  case rdRsvf => exact .inr (.inr (.inr (.inr (.inr (.inl ⟨.rsvf, rfl⟩)))))
  case wrLevel d => exact .inr (.inr (.inr (.inr (.inr (.inr ⟨.level, d, rfl⟩)))))
  case wrCtrl d => exact .inr (.inr (.inr (.inr (.inr (.inr ⟨.ctrl, d, rfl⟩)))))
  case wrAngle d => exact .inr (.inr (.inr (.inr (.inr (.inr ⟨.angle, d, rfl⟩)))))
  case wrStatus d => exact .inr (.inr (.inr (.inr (.inr (.inr ⟨.status, d, rfl⟩)))))
  case wrFlags d => exact .inr (.inr (.inr (.inr (.inr (.inr ⟨.flags, d, rfl⟩)))))
  case wrHccnt d => exact .inr (.inr (.inr (.inr (.inr (.inr ⟨.hccnt, d, rfl⟩)))))
  case wrOvfcnt d => exact .inr (.inr (.inr (.inr (.inr (.inr ⟨.ovfcnt, d, rfl⟩)))))
  case wrIrstat d => exact .inr (.inr (.inr (.inr (.inr (.inr ⟨.irstat, d, rfl⟩)))))
  case wrFrame0 d => exact .inr (.inr (.inr (.inr (.inr (.inr ⟨.frame0, d, rfl⟩)))))
  case wrFrame1 d => exact .inr (.inr (.inr (.inr (.inr (.inr ⟨.frame1, d, rfl⟩)))))
  case wrFrame2 d => exact .inr (.inr (.inr (.inr (.inr (.inr ⟨.frame2, d, rfl⟩)))))
  case wrFrame3 d => exact .inr (.inr (.inr (.inr (.inr (.inr ⟨.frame3, d, rfl⟩)))))
  case wrRsvc d => exact .inr (.inr (.inr (.inr (.inr (.inr ⟨.rsvc, d, rfl⟩)))))
  case wrRsvd d => exact .inr (.inr (.inr (.inr (.inr (.inr ⟨.rsvd, d, rfl⟩)))))
  case wrRsve d => exact .inr (.inr (.inr (.inr (.inr (.inr ⟨.rsve, d, rfl⟩)))))
  case wrRsvf d => exact .inr (.inr (.inr (.inr (.inr (.inr ⟨.rsvf, d, rfl⟩)))))

@[simp] theorem perform_rst : perform c .rst s = resetOp c s := rfl
@[simp] theorem perform_zc : perform c .zc s = zeroCross c s := rfl
@[simp] theorem perform_dt : perform c .dt s = delayTick s := rfl
@[simp] theorem perform_tb : perform c .tb s = s.mapBlock (timebaseTick c) := rfl

@[simp] theorem perform_edgeOp (lvl : Bool) : perform c (edgeOp lvl) s = s.mapBlock (irEdge c lvl) := by
  cases lvl <;> rfl

@[simp] theorem perform_readOp (r : Reg) : perform c r.readOp s = s.returnByte (memRead r.addr s.block) := by
  cases r <;> rfl

@[simp] theorem perform_writeOp (r : Reg) (d : Byte) :
    perform c (r.writeOp d) s = s.mapBlock (memWrite c r.addr d) := by
  cases r <;> rfl

/-- No operation depends on the period of the ticks or the width of the pulse (`40_firing_engine.md` R163,
`42_timebase.md` R192, `70_reset_and_hazards.md` R381). -/
theorem perform_ignores_timing (i : Instr) (t d p : Nat) :
    perform { c with tTb := t, tDt := d, pulseW := p } i s = perform c i s := by
  cases i <;> rfl

/-- A write has the effect of one of the three writing registers, or none (`20_memory.md` R83). -/
theorem memWrite_cases (a : RegAddr) (d : Byte) (b : Block) :
    memWrite c a d b = b ∨ memWrite c a d b = applyLevel c d b ∨ memWrite c a d b = writeCtrl d b
      ∨ memWrite c a d b = writeFlags d b := by
  unfold memWrite
  cases Reg.ofAddr a <;> simp

/-- A level that is not 0 is at least 1. -/
theorem clampLevel_pos {d : Byte} (h : clampLevel c d ≠ 0) : 1 ≤ (clampLevel c d).val :=
  Nat.pos_of_ne_zero fun h' => h (Fin.ext h')

/-- The clamped level is a level of the configuration (R172). -/
theorem clampLevel_lt (d : Byte) (h : 0 < c.nLevels) : (clampLevel c d).val < c.nLevels := by
  simp only [clampLevel, Config.topLevel]; omega

/-- The clamp of the machine, by the three ranges of R172. -/
theorem clampLevel_machine_val (d : Byte) :
    (clampLevel Config.machine d).val = if 0x80 ≤ d.toNat then 0 else if 10 ≤ d.toNat then 9 else d.toNat := by
  have : Config.machine.topLevel = 9 := rfl
  simp only [clampLevel, this]
  revert d; decide

/-- The five cases of the mapper (`41_speed_mapper.md` R173). -/
theorem applyLevel_cases (d : Byte) (b : Block) :
    (clampLevel c d = 0 ∧ applyLevel c d b =
        { b with startReq := false, level := 0, run := false, kickCnt := 0, phaseAngle := lutAt c 0 })
    ∨ (clampLevel c d ≠ 0 ∧ b.run = false ∧ b.startReq = true ∧ applyLevel c d b =
        { b with startReq := false, level := clampLevel c d, run := true, kickCnt := c.kickHalfcycles,
                 phaseAngle := lutAt c c.fullIdx })
    ∨ (clampLevel c d ≠ 0 ∧ b.run = false ∧ b.startReq = false ∧ applyLevel c d b =
        { b with startReq := false, level := clampLevel c d, phaseAngle := lutAt c (clampLevel c d) })
    ∨ (clampLevel c d ≠ 0 ∧ b.run = true ∧ b.kickCnt ≠ 0 ∧ applyLevel c d b =
        { b with startReq := false, level := clampLevel c d })
    ∨ (clampLevel c d ≠ 0 ∧ b.run = true ∧ b.kickCnt = 0 ∧ applyLevel c d b =
        { b with startReq := false, level := clampLevel c d, phaseAngle := lutAt c (clampLevel c d) }) := by
  by_cases hn : clampLevel c d = 0
  · left; simp [applyLevel, hn]
  · right
    cases hr : b.run
    · cases hq : b.startReq
      · right; left; simp [applyLevel, hn, hr, hq]
      · left; simp [applyLevel, hn, hr, hq]
    · by_cases hk : b.kickCnt = 0
      · right; right; right
        refine ⟨hn, rfl, hk, ?_⟩
        have : kickBit b = false := by simp [kickBit, hk]
        simp [applyLevel, hn, hr, this]
      · right; right; left
        refine ⟨hn, rfl, hk, ?_⟩
        have : kickBit b = true := decide_eq_true hk
        simp [applyLevel, hn, hr, this]

end Sys2Proof.Machine
end

