-- ==== Sys2Proof/Tests/Slice0.lean ====
section
/-! SUPPORT. Tests/Slice0.lean: decoding of words written out from the encoding tables, refusals of ill-formed terms, the
spec's own test vectors (`95_test_vectors.md`, with the example table of `00_scope.md` R12), and a witness for the
hypotheses of every statement that has some. -/

namespace Sys2Proof.Machine

/-- The configuration of the spec's vectors. -/
def exCfg : Config := Config.withExampleTable

/-- The reset state of the vectors, with a change of the block. -/
def exState (f : Block → Block) : State := (State.resetOf exCfg).mapBlock f

/-! ### Decoding: V1 to V16, the bits written out from R119 and R120 -/

theorem test_decode_rst : decode 0b0000_00000000000_0 = .ok .rst := by decide
theorem test_decode_zc : decode 0b0001_00000000000_0 = .ok .zc := by decide
theorem test_decode_dt : decode 0b0010_00000000000_0 = .ok .dt := by decide
theorem test_decode_tb : decode 0b0011_00000000000_0 = .ok .tb := by decide
theorem test_decode_iri : decode 0b0100_00000000000_0 = .ok .iri := by decide
theorem test_decode_ira : decode 0b0100_00000000000_1 = .ok .ira := by decide

theorem test_decode_reads :
    decode 0b1000_0000_00000000 = .ok .rdLevel ∧ decode 0b1000_0001_00000000 = .ok .rdCtrl
      ∧ decode 0b1000_0010_00000000 = .ok .rdAngle ∧ decode 0b1000_0011_00000000 = .ok .rdStatus
      ∧ decode 0b1000_0100_00000000 = .ok .rdFlags ∧ decode 0b1000_0101_00000000 = .ok .rdHccnt
      ∧ decode 0b1000_0110_00000000 = .ok .rdOvfcnt ∧ decode 0b1000_0111_00000000 = .ok .rdIrstat
      ∧ decode 0b1000_1000_00000000 = .ok .rdFrame0 ∧ decode 0b1000_1001_00000000 = .ok .rdFrame1
      ∧ decode 0b1000_1010_00000000 = .ok .rdFrame2 ∧ decode 0b1000_1011_00000000 = .ok .rdFrame3
      ∧ decode 0b1000_1100_00000000 = .ok .rdRsvc ∧ decode 0b1000_1101_00000000 = .ok .rdRsvd
      ∧ decode 0b1000_1110_00000000 = .ok .rdRsve ∧ decode 0b1000_1111_00000000 = .ok .rdRsvf := by decide

theorem test_decode_writes :
    decode 0b1001_0000_00000101 = .ok (.wrLevel 5) ∧ decode 0b1001_0001_00000001 = .ok (.wrCtrl 1)
      ∧ decode 0b1001_0010_10000001 = .ok (.wrAngle 0x81) ∧ decode 0b1001_0011_10000001 = .ok (.wrStatus 0x81)
      ∧ decode 0b1001_0100_11111111 = .ok (.wrFlags 0xFF) ∧ decode 0b1001_0101_10000001 = .ok (.wrHccnt 0x81)
      ∧ decode 0b1001_0110_10000001 = .ok (.wrOvfcnt 0x81) ∧ decode 0b1001_0111_10000001 = .ok (.wrIrstat 0x81)
      ∧ decode 0b1001_1000_10000001 = .ok (.wrFrame0 0x81) ∧ decode 0b1001_1001_10000001 = .ok (.wrFrame1 0x81)
      ∧ decode 0b1001_1010_10000001 = .ok (.wrFrame2 0x81) ∧ decode 0b1001_1011_10000001 = .ok (.wrFrame3 0x81)
      ∧ decode 0b1001_1100_10000001 = .ok (.wrRsvc 0x81) ∧ decode 0b1001_1101_10000001 = .ok (.wrRsvd 0x81)
      ∧ decode 0b1001_1110_10000001 = .ok (.wrRsve 0x81) ∧ decode 0b1001_1111_00000000 = .ok (.wrRsvf 0) := by decide

/-- V13 to V16. -/
theorem test_decode_refused :
    decode 0x1001 = .error .mustBeZero ∧ decode 0x0800 = .error .mustBeZero ∧ decode 0x3FFF = .error .mustBeZero
      ∧ decode 0x4002 = .error .mustBeZero ∧ decode 0x4003 = .error .mustBeZero ∧ decode 0x8401 = .error .mustBeZero
      ∧ decode 0x5000 = .error .reservedClass ∧ decode 0x6000 = .error .reservedClass
      ∧ decode 0x7000 = .error .reservedClass ∧ decode 0xA000 = .error .reservedClass
      ∧ decode 0xFFFF = .error .reservedClass := by decide

theorem test_decodeTableWord : decodeTableWord 16 0x9005 = some (.wrLevel 5) ∧ decodeTableWord 16 0x8401 = none := by
  decide

theorem test_fetch_word_runs : step (State.reset.withFetchWord 16 0x9104) = exec (.wrCtrl 4) State.reset := by rfl

/-! ### Ill-formed terms are refused -/

theorem test_wf_line_reg : (Line.rd (.number 15)).wellFormed = true ∧ (Line.rd (.number 16)).wellFormed = false := by
  decide

theorem test_wf_line_imm :
    (Line.wr (.name .level) (-128)).wellFormed = true ∧ (Line.wr (.name .level) 255).wellFormed = true
      ∧ (Line.wr (.name .level) (-129)).wellFormed = false ∧ (Line.wr (.name .level) 256).wellFormed = false
      ∧ (Line.wr (.number 16) 0).wellFormed = false := by decide

theorem test_assemble :
    assemble (.wr (.name .level) (-1)) = some (.wrLevel 0xFF) ∧ assemble (.rd (.number 10)) = some .rdFrame2
      ∧ assemble (.rd (.number 16)) = none := by decide

theorem test_wf_config : exCfg.admissible = true := by decide

theorem test_wf_config_refused :
    ({ exCfg with lut := #v[255, 230, 205, 180, 155, 156, 105, 80, 55, 30] } : Config).admissible = false
      ∧ ({ exCfg with kickHalfcycles := 0 } : Config).admissible = false
      ∧ ({ exCfg with irIdleTicks := 0 } : Config).admissible = false
      ∧ ({ exCfg with spaceRpt := 395 } : Config).admissible = false
      ∧ ({ exCfg with bitDisc := 167 } : Config).admissible = false
      ∧ ({ exCfg with lowMin := 57 } : Config).admissible = false
      ∧ ({ exCfg with lowMax := 253 } : Config).admissible = false
      ∧ ({ exCfg with spaceMin := 32768, spaceRpt := 65536 } : Config).admissible = false
      ∧ ({ exCfg with bitMin := 21846, bitDisc := 65538, lowMin := 21846 } : Config).admissible = false
      ∧ ({ exCfg with bitMax := 21846, lowMax := 65538 } : Config).admissible = false := by decide

/-- R361: with a tick of 39 microseconds the example table fits 10 ms, with 50 microseconds it does not. -/
theorem test_wf_fires_within :
    ({ exCfg with tDt := 39000 } : Config).firesWithin 10000000 = true
      ∧ ({ exCfg with tDt := 50000 } : Config).firesWithin 10000000 = false := by decide

theorem test_wf_run :
    isRun [.ira, .tb, .iri, .ira, .rst, .ira] = true ∧ isRun [.ira, .ira] = false ∧ isRun [.iri] = false
      ∧ isRun [.ira, .rst, .iri] = false := by decide

/-! ### Firing engine: V17 to V22c -/

/-- The block of V20: running at level 5. -/
def running5 (b : Block) : Block := { b with run := true, level := 5, phaseAngle := 130 }

theorem test_zc_v17 :
    perform exCfg .zc (exState id) = exState fun b =>
      { b with hcCnt := 1, flags := { b.flags with zcF := true }, dlyCnt := 255, dlyArmed := true } := by decide

theorem test_zc_v21_forced :
    (perform exCfg .zc (exState fun b => { b with run := true, level := 9, phaseAngle := 30, hcCnt := 255 })).gateTrace
        = [true]
      ∧ (perform exCfg .zc (exState fun b => { b with run := true, phaseAngle := 31, hcCnt := 255 })).gateTrace = []
      ∧ (perform exCfg .zc (exState fun b => { b with hcCnt := 255 })).block.hcCnt = 0 := by decide

theorem test_dt_v19_v20 :
    perform exCfg .dt (exState id) = exState id
      ∧ (perform exCfg .dt (exState fun b => { running5 b with dlyArmed := true })).gateTrace = [true, false]
      ∧ (perform exCfg .dt (exState fun b => { running5 b with dlyArmed := true, dlyCnt := 1 })).gateTrace = []
      ∧ (perform exCfg .dt (exState fun b => { running5 b with dlyArmed := true, gate := true })).gateTrace = [false]
      := by decide

/-- V22c: a stop during forced conduction. -/
theorem test_stop_v22c :
    perform exCfg (.wrLevel 0)
        (exState fun b => { b with run := true, level := 9, phaseAngle := 30, gate := true, dlyArmed := true, dlyCnt := 20 })
      = exState fun b => { b with gate := true, dlyArmed := true, dlyCnt := 20 } := by decide

/-! ### Mapper: V23 to V30 -/

theorem test_wrLevel_v23 :
    let lvl := fun d : Byte => (perform exCfg (.wrLevel d) (exState fun b => { b with startReq := true })).block
    ((lvl 0x0A).level = 9 ∧ (lvl 0x0A).kickCnt = 200 ∧ (lvl 0x0A).phaseAngle = 30)
      ∧ ((lvl 0x80).level = 0 ∧ (lvl 0x80).run = false ∧ (lvl 0x80).phaseAngle = 255)
      ∧ (lvl 0x7F).level = 9 ∧ (lvl 0xFF).level = 0 ∧ (lvl 5).startReq = false := by decide

/-- V25 (case C), V26 (case D), V27 (case E). -/
theorem test_wrLevel_v25_v27 :
    (perform exCfg (.wrLevel 4) (exState id)).block.phaseAngle = 155
      ∧ (perform exCfg (.wrLevel 4) (exState id)).block.run = false
      ∧ perform exCfg (.wrLevel 7)
          (exState fun b => { b with run := true, level := 4, phaseAngle := 30, kickCnt := 200, startReq := true })
        = (exState fun b => { b with run := true, level := 7, phaseAngle := 30, kickCnt := 200 })
      ∧ (perform exCfg (.wrLevel 2)
          (exState fun b => { b with run := true, level := 7, phaseAngle := 80, startReq := true })).block.phaseAngle = 205
      := by decide

/-- V29, the end of the hold: the level written during it is applied. -/
theorem test_kick_v29 :
    (perform exCfg .zc (exState fun b => { b with run := true, level := 3, phaseAngle := 30, kickCnt := 1 })).block.phaseAngle
        = 180
      ∧ (perform exCfg .zc
          (exState fun b => { b with run := true, level := 3, phaseAngle := 30, kickCnt := 1 })).block.dlyCnt = 30 := by decide

/-! ### Timebase: V31 to V37 -/

theorem test_tb_v33_v34 :
    (perform exCfg .tb (exState id)) = (exState fun b => { b with tbCnt := 1 })
      ∧ (perform exCfg .tb (exState fun b =>
          { b with tbCnt := 0xFFFF, ovfCnt := 255, flags := { b.flags with rptPend := true } }))
        = (exState fun b => { b with irIdle := 1, flags := { b.flags with rptPend := true, ovfF := true } }) := by decide

theorem test_tb_v35_v37 :
    (perform exCfg .tb (exState fun b =>
        { b with tbCnt := 0xFFFF, irIdle := 1, flags := { b.flags with rptPend := true } })).block.flags.rptPend = false
      ∧ (perform exCfg .tb (exState fun b => { b with tbCnt := 0xFFFF, irIdle := 2 })).block.irIdle = 2 := by decide

/-! ### Decoder: V38 to V42, V47, V48, V51; the timestamp is `n` ticks after the last edge -/

/-- A block in a decoder state, `n` ticks after the last edge. -/
def waiting (st : IrState) (n : Ticks) (b : Block) : Block := { b with irState := st, tbCnt := n }

/-- The decoder state after an `IRI` or an `IRA` in a state, `n` ticks after the last edge. -/
def judged (lvl : Bool) (st : IrState) (n : Ticks) : IrState :=
  (perform exCfg (edgeOp lvl) (exState (waiting st n))).block.irState

theorem test_iri_bounds :
    judged false .mark 786 = .idle ∧ judged false .mark 787 = .space ∧ judged false .mark 60000 = .space
      ∧ judged false .highBit 55 = .idle ∧ judged false .highBit 56 = .lowBit ∧ judged false .highBit 84 = .lowBit
      ∧ judged false .highBit 85 = .idle := by decide

theorem test_ira_bounds :
    judged true .space 0 = .repeatFrame ∧ judged true .space 393 = .repeatFrame ∧ judged true .space 394 = .highBit
      ∧ judged true .lowBit 55 = .idle ∧ judged true .lowBit 56 = .highBit ∧ judged true .lowBit 252 = .highBit
      ∧ judged true .lowBit 253 = .idle := by decide

/-- V41: the decoded bit, under both directions of the shift. -/
theorem test_ira_v41 :
    (perform exCfg .ira (exState (waiting .lowBit 167))).block.acc = 0
      ∧ (perform exCfg .ira (exState (waiting .lowBit 168))).block.acc = 0x80000000
      ∧ (perform { exCfg with accDir := .left } .ira (exState (waiting .lowBit 168))).block.acc = 1 := by decide

/-- V42: the repeat pulse; V48: an interval across a wrap. -/
theorem test_iri_v42_v48 :
    (perform exCfg .iri (exState (waiting .repeatFrame 84))).block.flags.rptPend = true
      ∧ (perform exCfg .iri (exState (waiting .repeatFrame 85))).block.flags.rptPend = false
      ∧ (perform exCfg .iri (exState fun b =>
          { b with irState := .mark, irLast := 0xFFF0, tbCnt := 0x0455 })).block.irState = .space := by decide

/-- The end of V43: the 32nd pause of 0xEA15FF00 (a long one); V47: the same pause out of bounds. -/
theorem test_ira_v43_v47 :
    (perform exCfg .ira (exState fun b => { waiting .lowBit 211 b with bitCnt := 31, acc := 0xD42BFE00 })).block
        = { (exState id).block with tbCnt := 211, irLast := 211, irLevel := true, acc := 0xEA15FF00,
                                    frame := 0xEA15FF00, flags := { (exState id).block.flags with frameRdy := true } }
      ∧ (perform exCfg .ira (exState fun b => { waiting .lowBit 300 b with bitCnt := 31, acc := 0xD42BFE00 })).block
        = { (exState id).block with tbCnt := 300, irLast := 300, irLevel := true, acc := 0xEA15FF00 } := by decide

/-! ### Host accesses: V53 to V61; reset: V64 -/

theorem test_reads_v53 :
    (runOps exCfg [.rdLevel, .rdCtrl, .rdAngle, .rdStatus, .rdFlags, .rdHccnt, .rdOvfcnt, .rdIrstat, .rdFrame0, .rdFrame1,
        .rdFrame2, .rdFrame3, .rdRsvc, .rdRsvd, .rdRsve, .rdRsvf] (exState id)).readTrace
      = [0, 0, 255, 0, 0, 0, 0, 0, 0, 0, 0, 0, 0, 0, 0, 0] := by decide

/-- V54 to V60, and the reads of `FRAME` of V43. -/
theorem test_reads_v54_v60 :
    (runOps exCfg [.wrLevel 0x0C, .rdLevel, .rdAngle, .wrCtrl 0xFF, .rdCtrl, .wrCtrl 0xFE, .rdCtrl] (exState id)).readTrace
        = [9, 30, 1, 0]
      ∧ memRead 3 (exState fun b =>
          { b with run := true, kickCnt := 199, gate := true, dlyArmed := true }).block = 0x0F
      ∧ memRead 3 (exState fun b => { b with irLevel := true }).block = 0x10
      ∧ memRead 7 (exState fun b => { b with irState := .highBit, bitCnt := 7 }).block = 0x67
      ∧ memRead 7 (exState fun b => { b with irState := .lowBit, bitCnt := 31 }).block = 0x9F
      ∧ (runOps exCfg [.rdFrame0, .rdFrame1, .rdFrame2, .rdFrame3]
          (exState fun b => { b with frame := 0xEA15FF00 })).readTrace = [0x00, 0xFF, 0x15, 0xEA] := by decide

/-- The flags of V58. -/
def flags1101 : Flags := { frameRdy := true, rptPend := false, ovfF := true, zcF := true }

theorem test_wrFlags_v58 :
    viewFlags flags1101 = 0b1101 ∧ viewFlags (clearFlags 0x05 flags1101) = 0b1000
      ∧ clearFlags 0xF0 flags1101 = flags1101 ∧ clearFlags 0 flags1101 = flags1101 := by decide

/-- V61: the other writes are ignored. -/
theorem test_ignored_writes_v61 :
    runOps exCfg [.wrAngle 1, .wrStatus 1, .wrHccnt 1, .wrOvfcnt 1, .wrIrstat 1, .wrFrame0 1, .wrFrame1 1, .wrFrame2 1,
        .wrFrame3 1, .wrRsvc 1, .wrRsvd 1, .wrRsve 1, .wrRsvf 1] (exState running5) = exState running5 := by decide

/-- V62: of a write and a `ZC` in one cycle the set wins. -/
theorem test_cycle_v62 :
    cycleOps { rst := false, host := some (.wr .flags 0x08), zc := true, dt := false, ir := none, tb := false }
      = [.wrFlags 0x08, .zc] := by decide

theorem test_rst_v64 :
    perform exCfg .rst (exState fun b =>
        { b with run := true, level := 9, gate := true, dlyArmed := true, irState := .lowBit, bitCnt := 12, tbCnt := 0x1234 })
      = { exState id with gateTrace := [false] } := by decide

/-- S4: the source's checksum example and its two single-bit flips. -/
theorem test_frameValid_s4 :
    frameValid .right 0xEA15FF00 = true ∧ frameValid .right 0xEB15FF00 = false ∧ frameValid .right 0xEA157F00 = false
      ∧ frameValid .left 0x00FFA857 = true := by decide

/-- S9: the factory image (speed 5, status 1) issues `START 5`. -/
theorem test_boot_s9 : bootOps exCfg 5 1 = start 5 ++ [.rdStatus] ∧ bootOps exCfg 5 0 = [.wrLevel 5, .rdStatus] := by decide

/-- The pins of the reference wiring (R8): `gate_n` is low when conductive, `ir_in` is low during a burst. -/
theorem test_pins :
    gatePin exCfg (exState fun b => { b with gate := true }).block = false
      ∧ irStimulus exCfg true false = some .ira ∧ irStimulus exCfg false true = some .iri
      ∧ zcStimulus exCfg false true = some .zc ∧ zcStimulus exCfg true false = none := by decide

/-- R352: the first edge after reset is an `IRA` whatever its direction; in the reference wiring a low pin is a burst. -/
theorem test_first_edge :
    irStimuliFromReset exCfg true [true, false, false, true] = [.ira, .iri]
      ∧ irStimuliFromReset exCfg false [false, true, false, true] = [.ira, .ira, .iri] := by decide

/-- Other values of the counts and widths of R11: five levels, an eight-bit timebase, frames of four bits. -/
theorem test_other_parameters :
    clampLevel { exCfg with nLevels := 5, fullIdx := 4 } 9 = 4
      ∧ (perform { exCfg with tbWidth := 8 } .tb (exState fun b => { b with tbCnt := 255 })).block.tbCnt = 0
      ∧ (perform { exCfg with tbWidth := 8 } .tb (exState fun b => { b with tbCnt := 255 })).block.ovfCnt = 1
      ∧ (perform { exCfg with frameBits := 4 } .ira
          (exState fun b => { b with irState := .lowBit, tbCnt := 70, bitCnt := 3 })).block.flags.frameRdy = true
      ∧ ({ exCfg with tbWidth := 17 } : Config).admissible = false ∧ ({ exCfg with hostAw := 5 } : Config).admissible = false
      ∧ ({ exCfg with nLevels := 9 } : Config).admissible = false := by decide

/-- The expansions of R128 on small counts, and `START 5`. -/
theorem test_pseudo : burst 2 = [.ira, .tb, .tb, .iri] ∧ burstGap 1 2 = [.ira, .tb, .iri, .tb, .tb]
    ∧ start 5 = [.wrCtrl 1, .wrLevel 5] ∧ ack 1 = [.wrFlags 1] := by decide

/-! ### The host model: S5 to S9 -/

/-- A host with a small command table, two ticks to the hour. -/
def exHost : HostConfig :=
  { cmdTable := [(0x15, .increment), (0x1C, .digit 5), (0x40, .hoursUp)], hourTicks := 2, feedbackHalfcycles := 3,
    repeatAfterBadFrame := false, zeroSpeedAtTimeout := false, bothKeys := none, bootPattern := [],
    countdownPattern := [], indicatorActiveLow := false }

/-- The site after the boot sequence, with the factory image or with the fan off. -/
def booted (status : Byte) : Site := Site.boot exCfg exHost (Store.factory.write (2, status))

/-- A site at which a frame, or a repeat, has arrived. -/
def received (w : FrameWord) (x : Site) : Site :=
  { x with machine := x.machine.mapBlock fun b => { b with frame := w }.raiseFrameRdy }

/-- See `received`. -/
def repeated (x : Site) : Site := { x with machine := x.machine.mapBlock Block.raiseRptPend }

theorem test_host_boot_s9 :
    (booted 1).machine.block.run = true ∧ (booted 1).machine.block.level = 5 ∧ (booted 1).machine.block.kickCnt = 200
      ∧ (booted 1).host.timerRunning = false ∧ (booted 0).machine.block.run = false
      ∧ (booted 0).machine.block.level = 5 := by decide

/-- The boot arms the countdown at the stored hours; at 1 where they are 0, the choice of log entry 22. -/
theorem test_host_boot_armed :
    let hours := fun v => (Site.boot exCfg exHost ((Store.factory.write (1, v)).write (2, 3))).host
    ((hours 3).timerRunning = true ∧ (hours 3).hours = 3) ∧ (hours 0).timerRunning = true ∧ (hours 0).hours = 1 := by decide

theorem test_host_countdown_s5 :
    let after := fun n => Site.times (Site.overflow exCfg exHost) n ((booted 1).mapHost (HostData.armAt exHost 3))
    ((after 5).machine.block.run = true ∧ (after 5).host.hours = 1)
      ∧ (after 6).machine.block.run = false ∧ (after 6).host.timerRunning = false ∧ (after 6).host.hours = 0 := by decide

theorem test_host_persistence_s6 :
    let after := fun n => Site.times (Site.overflow exCfg exHost) n ((booted 1).setSpeed exCfg true 7)
    (after 7).host.store = .factory ∧ (after 8).host.store.record = { speed := 7, hours := 1, status := 1 } := by
  decide +kernel

theorem test_store_writes :
    storeWrites false { speed := 7, hours := 2, status := 1 } { speed := 7, hours := 1, status := 1 } = []
      ∧ storeWrites true { speed := 7, hours := 2, status := 1 } { speed := 7, hours := 1, status := 1 } = [(1, 1)] := by
  decide

/-- R296: the factory image and the unused remainder; a write keeps the canonical form; the store outlives the power. -/
theorem test_store :
    (Store.factory.read 0 = 5 ∧ Store.factory.read 1 = 1 ∧ Store.factory.read 2 = 1 ∧ Store.factory.read 3 = 0xFF)
      ∧ (Store.factory.write (7, 0x12)).read 7 = 0x12 ∧ (Store.factory.write (7, 0x12)).write (7, 0xFF) = .factory
      ∧ ((Store.factory.write (7, 0x12)).write (4, 0)).cells = [(0, 5), (1, 1), (2, 1), (4, 0), (7, 0x12)]
      ∧ (((booted 0).setSpeed exCfg true 9).powerCycle exCfg exHost) = booted 0 := by decide

/-- The end of a countdown waits for eight further ticks before the fan-running bit is stored. -/
theorem test_host_timeout_stored :
    let x := (booted 1).mapHost fun h => { h.armAt exHost 1 with reload := 1, eligCnt := 6 }
    let after := fun n => (Site.times (Site.overflow exCfg exHost) n x).host
    (after 1).timerRunning = false ∧ (after 1).reload = 2 ∧ (after 8).store.read 2 = 1
      ∧ (after 9).store.read 2 = 0 := by decide

theorem test_host_repeat_s8 :
    let x := (received 0xEA15FF00 (booted 1)).takeFrame exCfg exHost
    x.machine.block.level = 6 ∧ ((repeated x).takeRepeat exCfg exHost).machine.block.level = 7
      ∧ ((repeated x).takeRepeat exCfg exHost).machine.block.flags.rptPend = false
      ∧ ((received 0xEB15FF00 (booted 1)).takeFrame exCfg exHost).machine.block.level = 5 := by decide

/-- The zero-crosses or the timebase ticks of the block at a site. -/
def during (ops : List Instr) (x : Site) : Site := { x with machine := runOps exCfg ops x.machine }

/-- A press is counted from the sample that sees the key; the counter ends at the release with no half-cycle between. -/
theorem test_host_keys :
    let x := (booted 1).serve exCfg exHost true false
    let y := (during (zcN 4) x).serve exCfg exHost true false
    (x.machine.block.level = 5 ∧ ((during (zcN 3) x).serve exCfg exHost true false).machine.block.level = 5)
      ∧ ((during (zcN 4) (booted 1)).serve exCfg exHost true false).machine.block.level = 5
      ∧ (y.machine.block.level = 6 ∧ y.host.keyCnt = 4 ∧ y.host.keyHold = 50)
      ∧ (y.serve exCfg exHost false false).host.keyCnt = 0 ∧ (y.serve exCfg exHost false false).host.keyHold = 0 := by
  decide

/-- R298: the key inputs are active-low. -/
theorem test_host_key_pins :
    ((booted 1).servePins exCfg exHost false true).host.keysHeld = true
      ∧ ((booted 1).servePins exCfg exHost true true).host.keysHeld = false
      ∧ (booted 1).servePins exCfg exHost true false = (booted 1).serve exCfg exHost false true := by decide

/-- While a key stays held the press repeats when 50 half-cycles have passed, and not one before. -/
theorem test_host_autorepeat :
    let x := (booted 1).mapHost fun h => { h with keysHeld := true, keyCnt := 10, keyHold := 2 }
    (x.keys exCfg exHost true false).host.speed = 5
      ∧ (Site.times (Site.keys exCfg exHost true false) 2 x).host.speed = 6
      ∧ (Site.times (Site.keys exCfg exHost true false) 2 x).host.keyHold = 50 := by decide

/-- What a command starts is charged with no tick that came before it; the feedback lasts its three half-cycles. -/
theorem test_host_window :
    let x := (during (zcN 5) (received 0xE31CFF00 (booted 1))).serve exCfg exHost false false
    (x.host.indicator = 3 ∧ x.host.lit exHost = true)
      ∧ ((during (zcN 2) x).serve exCfg exHost false false).host.lit exHost = true
      ∧ ((during (zcN 3) x).serve exCfg exHost false false).host.lit exHost = false := by decide

theorem test_host_countdown_from_arming :
    let x := { received 0xBF40FF00 (booted 1) with
      machine := (received 0xBF40FF00 (booted 1)).machine.mapBlock fun b => { b with ovfCnt := 3 } }
    (x.serve exCfg exHost false false).host.reload = 2 ∧ (x.serve exCfg exHost false false).host.hours = 2
      ∧ (x.serve exCfg exHost false false).host.ovfSeen = 3 := by decide +kernel

/-- A dispatch, a repeat's too, starts by clearing the unknown-command flag. -/
theorem test_host_unknown :
    let x := (received 0xEA15FF00 (booted 1)).takeFrame exCfg exHost
    let y := (received 0xFE01FF00 x).takeFrame exCfg exHost
    y.host.unknown = true ∧ y.machine.block.level = 6 ∧ ((repeated y).takeRepeat exCfg exHost).host.unknown = false := by
  decide

theorem test_host_indicator :
    let hc := { exHost with bootPattern := [true, false], countdownPattern := [true, false], indicatorActiveLow := true }
    let x := Site.boot exCfg hc .factory
    let y := x.mapHost fun h => { h.armAt hc 1 with bootSignal := [] }
    (x.host.lit hc = true ∧ (x.halfCycle exCfg hc false false).host.lit hc = false)
      ∧ (y.host.lit hc = true ∧ (y.halfCycle exCfg hc false false).host.lit hc = false)
      ∧ y.host.indicatorPin hc = false := by decide

theorem test_host_admissible :
    exHost.admissible = true ∧ ({ exHost with cmdTable := [(0x1C, .digit 4), (0x15, .increment)] }).admissible = false := by
  decide

theorem test_witness_DigitFiveStartsFan :
    let x := received 0xE31CFF00 (booted 0)
    exHost.cmdTable.lookup 0x1C = some (.digit 5) ∧ x.machine.block.run = false
      ∧ x.machine.block.flags.frameRdy = true ∧ frameValid .right x.machine.block.frame = true
      ∧ (frameFields .right x.machine.block.frame).2.2.1 = 0x1C := by decide

/-! ### Witnesses: a state and operands that meet the hypotheses of each statement -/

theorem test_witness_DecodeOfEncode : (Instr.wrLevel 0xFF).wellFormed = true := by decide

theorem test_witness_EncodeOfDecode : decode 0x9F00 = .ok (.wrRsvf 0) := by decide

theorem test_witness_AssembledOperands :
    (-128 : Int) ≤ -128 ∧ (-128 : Int) ≤ 255 ∧ (-128 : Int) ≤ 255 ∧ (255 : Int) ≤ 255 := by decide

/-- A machine with stimuli waiting. -/
def queued (ws : List OpWord) : State := { exState id with stimuli := ws }

theorem test_witness_StepRunsNextStimulus :
    (queued [0x1000, 0x2000]).stimuli = 0x1000 :: [0x2000] ∧ decode 0x1000 = .ok .zc := by decide

theorem test_witness_StepRefusesReservedWords :
    (queued [0x5000]).stimuli = 0x5000 :: [] ∧ decode 0x5000 = .error .reservedClass
      ∧ (queued [0x1001]).stimuli = 0x1001 :: [] ∧ decode 0x1001 = .error .mustBeZero := by decide

theorem test_witness_ArrivingWordRunsNext : (exState id).stimuli = [] := by decide

/-- A block at level 3, stopped, under the machine's own table. -/
def level3 : Block := { Block.reset Config.machine with level := 3, phaseAngle := lutAt Config.machine 3 }

theorem test_witness_StepKeepsInvariants :
    Block.Inv Config.machine level3
      ∧ ∃ t, step { State.reset with block := level3, stimuli := [0x3000] } = .next t := by
  refine ⟨?_, _, rfl⟩
  constructor <;> simp [level3, Block.reset, Config.machine]

theorem test_witness_OperationKeepsInvariants :
    exCfg.admissible = true
      ∧ Block.Inv exCfg (exState fun b => { b with run := true, level := 5, phaseAngle := 30, kickCnt := 200 }).block := by
  refine ⟨by decide, ?_⟩
  constructor <;> decide

/-- A conductive gate with its transition in the trace. -/
def conducting : State :=
  { exState (fun b => { b with gate := true, dlyArmed := true, dlyCnt := 20 }) with gateTrace := [true], stimuli := [0] }

theorem test_witness_StepKeepsGateTrace : conducting.TraceInv ∧ ∃ t, step conducting = .next t :=
  ⟨⟨rfl, rfl⟩, _, rfl⟩

theorem test_witness_AlternatingEdgesKeepLevel :
    (exState fun b => { waiting .mark 787 b with irLevel := true }).block.LevelInv
      ∧ (exState fun b => { waiting .mark 787 b with irLevel := true }).admits .iri = true :=
  ⟨⟨fun _ => rfl, fun h => absurd h (by decide)⟩, rfl⟩

theorem test_witness_AdmittedInRunFromReset : isRun ([.ira, .tb] ++ .iri :: [.ira]) = true := by decide

theorem test_witness_MachineTableDecreases : (0 : Level) ≤ 9 := by decide

theorem test_witness_DelayTickResult :
    (exState id).block.dlyArmed = false
      ∧ ((exState fun b => { b with dlyArmed := true, dlyCnt := 1 }).block.dlyArmed = true
        ∧ (exState fun b => { b with dlyArmed := true, dlyCnt := 1 }).block.dlyCnt ≠ 0)
      ∧ ((exState fun b => { b with dlyArmed := true }).block.dlyArmed = true
        ∧ (exState fun b => { b with dlyArmed := true }).block.dlyCnt = 0) := by decide

theorem test_witness_ops_without_zc :
    Instr.zc ∉ [Instr.dt, .tb, .wrLevel 5, .dt] ∧ Instr.rst ∉ [Instr.dt, .tb, .wrLevel 5, .dt] := by decide

theorem test_witness_GateNotDrivenWhileStopped : (exState id).block.run = false := by decide

theorem test_witness_StopReleasesGateAtExpiry :
    128 ≤ (0x80 : Byte).toNat ∧ conducting.block.gate = true ∧ conducting.block.dlyArmed = true := by decide

theorem test_witness_WriteLevelResult :
    (0 : Level).val = (if 0x80 ≤ (0x80 : Byte).toNat then 0 else if 10 ≤ (0x80 : Byte).toNat then 9 else (0x80 : Byte).toNat)
      ∧ (9 : Level).val = (if 0x80 ≤ (10 : Byte).toNat then 0 else if 10 ≤ (10 : Byte).toNat then 9 else (10 : Byte).toNat)
      ∧ (9 : Level).val = (if 0x80 ≤ (9 : Byte).toNat then 0 else if 10 ≤ (9 : Byte).toNat then 9 else (9 : Byte).toNat) := by
  decide

theorem test_witness_KickStartCountsZeroCrosses :
    (∀ d, Instr.wrLevel d ∉ [Instr.zc, .dt, .zc]) ∧ Instr.rst ∉ [Instr.zc, .dt, .zc]
      ∧ (exState fun b => { b with kickCnt := 1 }).block.kickCnt ≠ 0 := by
  refine ⟨fun d => ?_, by decide, by decide⟩
  simp

theorem test_witness_RunBeginsWithKickStart :
    (exState fun b => { b with startReq := true }).block.run = false
      ∧ (perform Config.machine (.wrLevel 1) (exState fun b => { b with startReq := true })).block.run = true
      ∧ (exState fun b => { b with startReq := true }).block.kickCnt.toNat
        < (perform Config.machine (.wrLevel 1) (exState fun b => { b with startReq := true })).block.kickCnt.toNat := by decide

theorem test_witness_OnlyMapperWritesAngle :
    (perform exCfg (.wrLevel 4) (exState id)).block.phaseAngle ≠ (exState id).block.phaseAngle := by decide

theorem test_witness_TimebaseTickResult :
    (exState fun b => { b with tbCnt := 0xFFFE }).block.tbCnt ≠ 0xFFFF
      ∧ (exState fun b => { b with tbCnt := 0xFFFF }).block.tbCnt = 0xFFFF := by decide

theorem test_witness_ManyTimebaseTicks :
    exCfg.admissible = true
      ∧ (exState fun b => { b with tbCnt := 0xFFFF }).block.tbCnt.toNat < 2 ^ exCfg.tbWidth
      ∧ 1 = ((exState fun b => { b with tbCnt := 0xFFFF }).block.tbCnt.toNat + 1) / 2 ^ exCfg.tbWidth := by decide

/-- The same at a width of eight bits. -/
theorem test_witness_ManyTimebaseTicks_narrow :
    let c := { exCfg with tbWidth := 8 }
    c.admissible = true ∧ (exState fun b => { b with tbCnt := 255 }).block.tbCnt.toNat < 2 ^ c.tbWidth
      ∧ 2 = ((exState fun b => { b with tbCnt := 255 }).block.tbCnt.toNat + 257) / 2 ^ c.tbWidth := by decide

theorem test_witness_PendingRepeatLifetime :
    (exState fun b => { b with flags := { b.flags with rptPend := true } }).block.irIdle = 0
      ∧ (exState fun b => { b with flags := { b.flags with rptPend := true } }).block.flags.rptPend = true := by decide

/-- The hypotheses of the statements about an edge, in each state, with the interval at a bound. -/
theorem test_witness_EdgeStates :
    ∀ p ∈ [(IrState.idle, 0), (.mark, 786), (.mark, 787), (.space, 393), (.space, 394), (.highBit, 55), (.highBit, 56),
        (.highBit, 84), (.highBit, 85), (.lowBit, 55), (.lowBit, 56), (.lowBit, 252), (.lowBit, 253),
        (.repeatFrame, 55), (.repeatFrame, 56), (.repeatFrame, 84), (.repeatFrame, 85)],
      (exState (waiting p.1 (BitVec.ofNat 16 p.2))).block.irState = p.1
        ∧ (exState (waiting p.1 (BitVec.ofNat 16 p.2))).block.bitCnt.toNat ≤ 31
        ∧ p.2 = ((exState (waiting p.1 (BitVec.ofNat 16 p.2))).block.tbCnt
            - (exState (waiting p.1 (BitVec.ofNat 16 p.2))).block.irLast).toNat := by decide

theorem test_witness_EdgeInLowBit_last :
    (exState fun b => { waiting .lowBit 211 b with bitCnt := 31 }).block.bitCnt.toNat ≤ 31
      ∧ (0x80000000 : FrameWord)
        = (if 168 ≤ 211 then 0x80000000 else 0)
          ||| (exState fun b => { waiting .lowBit 211 b with bitCnt := 31 }).block.acc >>> 1 := by decide

/-- Each cause at a bound of its interval, and the interval that the hypothesis names. -/
theorem test_witness_SoftErrorCauses :
    (∀ p ∈ [(IrState.mark, 786, some SoftError.markShort), (.mark, 787, none), (.highBit, 55, some .highOutOfBounds),
        (.highBit, 56, none), (.highBit, 84, none), (.highBit, 85, some .highOutOfBounds),
        (.lowBit, 55, some .lowOutOfBounds), (.lowBit, 56, none), (.lowBit, 252, none),
        (.lowBit, 253, some .lowOutOfBounds), (.repeatFrame, 55, some .repeatOutOfBounds), (.repeatFrame, 56, none),
        (.repeatFrame, 84, none), (.repeatFrame, 85, some .repeatOutOfBounds)],
      let b := (exState (waiting p.1 (BitVec.ofNat 16 p.2.1))).block
      p.2.1 = (b.tbCnt - b.irLast).toNat % 2 ^ exCfg.tbWidth ∧ edgeError exCfg true b = p.2.2) := by decide

theorem test_witness_SoftErrorOnlyResetsDecoder :
    edgeError exCfg false (exState (waiting .mark 786)).block ≠ none
      ∧ edgeError exCfg true (exState (waiting .lowBit 253)).block ≠ none := by decide

theorem test_witness_WellTimedFrameIsDecoded :
    (exState id).block.irState = .idle ∧ 787 ≤ 787 ∧ 787 < 65536 ∧ 394 ≤ 394 ∧ 394 < 65536
      ∧ (List.replicate 32 (84, 252)).length = 32
      ∧ (∀ p ∈ List.replicate 32 (84, 252), 56 ≤ p.1 ∧ p.1 ≤ 84 ∧ 56 ≤ p.2 ∧ p.2 ≤ 252)
      ∧ (List.replicate 32 (84, 252))[31]? = some (84, 252) := by decide

theorem test_witness_RepeatFrameIsRecognised :
    (exState id).block.irState = .idle ∧ 787 ≤ 787 ∧ 787 < 65536 ∧ 393 < 394 ∧ 56 ≤ 84 ∧ 84 ≤ 84 := by decide

theorem test_witness_ShortBurstResynchronises : (exState id).block.irState = .idle ∧ 786 < 787 := by decide

theorem test_witness_DecoderIgnoresFiringHalf :
    (exState running5).block.decoderHalf = (exState id).block.decoderHalf ∧ exState running5 ≠ exState id := by decide

theorem test_witness_FiringIgnoresDecoderHalf :
    (exState (waiting .mark 787)).block.firingHalf = (exState id).block.firingHalf
      ∧ (exState (waiting .mark 787)).gateTrace = (exState id).gateTrace
      ∧ exState (waiting .mark 787) ≠ exState id := by decide

theorem test_witness_WritesReachOnlyTheirRegisters :
    4 ≤ (4 : RegAddr).toNat ∧ (0 : RegAddr) ≠ 1 ∧ (3 : RegAddr) ≠ 4 := by decide

theorem test_witness_HostCannotDriveHardware :
    (perform Config.machine (Reg.flags.writeOp 0x02) (exState fun b => { b with flags := flags1101 })).block.flags
      = flags1101 := by decide

theorem test_witness_SameCycleSetWins :
    let k : Cycle := { rst := false, host := some (.wr .flags 0x0F), zc := true, dt := true, ir := some true, tb := true }
    let n := fun b : Block => (interval exCfg b).toNat
    (k.rst = false ∧ k.zc = true ∧ k.tb = true ∧ k.ir ≠ none ∧ ({ k with rst := true } : Cycle).rst = true)
      ∧ exCfg.tick ((exState fun b => { b with tbCnt := 0xFFFF }).block.tbCnt + 1) = 0
      ∧ (exCfg.admissible = true ∧ (exState fun b => { waiting .lowBit 56 b with bitCnt := 31 }).block.bitCnt.toNat + 1
          = exCfg.frameBits ∧ exCfg.lowMin ≤ n (waiting .lowBit 56 (exState id).block)
          ∧ n (waiting .lowBit 252 (exState id).block) ≤ exCfg.lowMax)
      ∧ (exCfg.bitMin ≤ n (waiting .repeatFrame 56 (exState id).block)
          ∧ n (waiting .repeatFrame 84 (exState id).block) ≤ exCfg.bitMax ∧ 2 ≤ exCfg.irIdleTicks.toNat) := by decide

theorem test_witness_FrameChecksum :
    31 < 32 ∧ frameValid .right 0xEA15FF00 = true ∧ frameValid .left 0x00FFA857 = true := by decide

end Sys2Proof.Machine
end

/-! ## Every operation's word decodes to it (`30_encoding.md` R119, R120, R123) -/

namespace Sys2Proof

theorem decode_encode_edgeOp (lvl : Bool) : decode (encode (edgeOp lvl)) = .ok (edgeOp lvl) := by
  cases lvl <;> rfl

theorem decode_encode_readOp (r : Reg) : decode (encode r.readOp) = .ok r.readOp := by
  simp [encode_readOp, decode, accept]

theorem decode_encode_writeOp (r : Reg) (d : Byte) : decode (encode (r.writeOp d)) = .ok (r.writeOp d) := by
  simp [encode_writeOp, decode]

theorem decode_encode (i : Instr) : decode (encode i) = .ok i := by
  obtain rfl | rfl | rfl | rfl | ⟨lvl, rfl⟩ | ⟨r, rfl⟩ | ⟨r, d, rfl⟩ := Machine.Instr.cases_access i
  · rfl
  · rfl
  · rfl
  · rfl
  · exact decode_encode_edgeOp lvl
  · exact decode_encode_readOp r
  · exact decode_encode_writeOp r d

end Sys2Proof

/-! ## What an operation and a step can do (`00_scope.md` R9, R10; `20_memory.md` R82, R83) -/

namespace Sys2Proof.Machine

theorem exec_edgeOp (lvl : Bool) (s : State) :
    exec (edgeOp lvl) s = .next (s.mapBlock (irEdge Config.machine lvl)) := by
  cases lvl <;> rfl

theorem exec_readOp (r : Reg) (s : State) : exec r.readOp s = .next (s.returnByte (memRead r.addr s.block)) := by
  cases r <;> rfl

theorem exec_writeOp (r : Reg) (d : Byte) (s : State) :
    exec (r.writeOp d) s = .next (s.mapBlock (memWrite Config.machine r.addr d)) := by
  cases r <;> rfl

/-- The meaning of an operation is the operation at the machine's configuration. -/
theorem exec_eq_perform (i : Instr) (s : State) : exec i s = .next (perform Config.machine i s) := by
  obtain rfl | rfl | rfl | rfl | ⟨lvl, rfl⟩ | ⟨r, rfl⟩ | ⟨r, d, rfl⟩ := Instr.cases_access i
  · rfl
  · rfl
  · rfl
  · rfl
  · rw [exec_edgeOp, perform_edgeOp]
  · rw [exec_readOp, perform_readOp]
  · rw [exec_writeOp, perform_writeOp]

section Step

variable {s t : State} {w : OpWord} {rest : List OpWord}

theorem State.nextStimulus_of_nil (h : s.stimuli = []) : s.nextStimulus = none := by
  simp [State.nextStimulus, h]

theorem State.nextStimulus_of_cons (h : s.stimuli = w :: rest) :
    s.nextStimulus = some (w, { s with stimuli := rest }) := by
  simp [State.nextStimulus, h]

theorem step_of_no_stimulus (h : s.stimuli = []) : step s = .next s := by
  simp [step, State.nextStimulus_of_nil h]

theorem step_of_decode_ok {i : Instr} (h : s.stimuli = w :: rest) (hd : decode w = .ok i) :
    step s = exec i { s with stimuli := rest } := by
  simp [step, State.nextStimulus_of_cons h, hd]

theorem step_of_decode_error {e : DecodeError} (h : s.stimuli = w :: rest) (hd : decode w = .error e) :
    step s = .refused (refusalOf e) := by
  simp [step, State.nextStimulus_of_cons h, hd]

/-- A step that answers a next state found no stimulus, or performed the operation of the next one. -/
theorem step_next_cases (h : step s = .next t) :
    (s.stimuli = [] ∧ t = s) ∨
      ∃ w rest i, s.stimuli = w :: rest ∧ decode w = .ok i ∧
        t = perform Config.machine i { s with stimuli := rest } := by
  cases hs : s.stimuli with
  | nil =>
    rw [step_of_no_stimulus hs] at h
    cases h
    exact .inl ⟨rfl, rfl⟩
  | cons w rest =>
    cases hd : decode w with
    | ok i =>
      rw [step_of_decode_ok hs hd, exec_eq_perform] at h
      cases h
      exact .inr ⟨w, rest, i, rfl, hd, rfl⟩
    | error e =>
      rw [step_of_decode_error hs hd] at h
      cases h

end Step

/-- Fetching the word of an operation puts that operation's word first. -/
theorem State.withFetchWord_encode (s : State) (i : Instr) :
    s.withFetchWord 16 (encode i).toNat = s.arrive (encode i) := by
  have hw : (encode i).toNat % 2 ^ 16 = (encode i).toNat := Nat.mod_eq_of_lt (encode i).isLt
  rw [State.withFetchWord, hw, BitVec.ofNat_toNat, BitVec.setWidth_eq]

/-! ## The gate trace (`00_scope.md` R15)

Each operation is a composition of `driveGate`, which keeps the trace by itself, and of changes that leave `GATE`. -/

section GateTrace

variable {s : State}

/-- Whatever changes the block but not `GATE` keeps the gate trace. -/
theorem State.TraceInv.mapBlock {f : Block → Block} (h : s.TraceInv) (hf : (f s.block).gate = s.block.gate) :
    (s.mapBlock f).TraceInv := by
  obtain ⟨htrace, hgate⟩ := h
  exact ⟨htrace, hf.trans hgate⟩

/-- `drive gate` keeps the gate trace: it appends nothing, or the value that the alternation wants next. -/
theorem State.TraceInv.driveGate (v : Bool) (h : s.TraceInv) : (s.driveGate v).TraceInv := by
  by_cases hv : v = s.block.gate
  · subst hv
    rwa [State.driveGate_same]
  · obtain ⟨htrace, hgate⟩ := h
    have hnext : v = decide (s.gateTrace.length % 2 = 0) := by
      rw [Bool.eq_not_of_ne hv, hgate, ← decide_not]
      exact decide_eq_decide.mpr (by omega)
    rw [State.driveGate_change v s hv]
    constructor
    · simp [alternatingTrace, ← htrace, hnext]
    · simp only [List.length_append, List.length_singleton, hnext]
      exact decide_eq_decide.mpr (by omega)

theorem resetOp_traceInv (c : Config) (h : s.TraceInv) : (resetOp c s).TraceInv :=
  (h.driveGate false).mapBlock rfl

theorem forceConduction_traceInv (c : Config) (h : s.TraceInv) : (forceConduction c s).TraceInv := by
  unfold forceConduction
  split
  · exact h.driveGate true
  · exact h

theorem zeroCross_traceInv (c : Config) (h : s.TraceInv) : (zeroCross c s).TraceInv := by
  have hreload : ((s.mapBlock countHalfCycle).mapBlock reloadDelay).TraceInv := (h.mapBlock rfl).mapBlock rfl
  exact (forceConduction_traceInv c hreload).mapBlock (kickCountdown_gate c _)

theorem expiry_traceInv (h : s.TraceInv) : (expiry s).TraceInv := by
  have hdisarmed : (s.mapBlock fun b => { b with dlyArmed := false }).TraceInv := h.mapBlock rfl
  unfold expiry
  dsimp only
  split
  · exact (hdisarmed.driveGate true).driveGate false
  · exact hdisarmed.driveGate false

theorem delayTick_traceInv (h : s.TraceInv) : (delayTick s).TraceInv := by
  unfold delayTick
  split
  · split
    · exact expiry_traceInv h
    · exact h.mapBlock rfl
  · exact h

theorem irEdge_gate (c : Config) (lvl : Bool) (b : Block) : (irEdge c lvl b).gate = b.gate :=
  congrArg FiringHalf.gate (irEdge_firingHalf c lvl b)

theorem timebaseTick_gate (c : Config) (b : Block) : (timebaseTick c b).gate = b.gate :=
  congrArg FiringHalf.gate (timebaseTick_firingHalf c b)

/-- No write of the host reaches `GATE`. -/
theorem memWrite_gate (c : Config) (a : RegAddr) (d : Byte) (b : Block) : (memWrite c a d b).gate = b.gate := by
  obtain h | h | h | h := memWrite_cases c a d b <;> rw [h]
  · exact (applyLevel_firing c b d).1
  · rfl
  · rfl

/-- Every operation keeps the gate trace a list of transitions, under every configuration. -/
theorem perform_traceInv (c : Config) (i : Instr) (h : s.TraceInv) : (perform c i s).TraceInv := by
  obtain rfl | rfl | rfl | rfl | ⟨lvl, rfl⟩ | ⟨r, rfl⟩ | ⟨r, d, rfl⟩ := Instr.cases_access i
  · exact resetOp_traceInv c h
  · exact zeroCross_traceInv c h
  · exact delayTick_traceInv h
  · exact h.mapBlock (timebaseTick_gate c _)
  · rw [perform_edgeOp]
    exact h.mapBlock (irEdge_gate c lvl _)
  · rw [perform_readOp]
    exact h
  · rw [perform_writeOp]
    exact h.mapBlock (memWrite_gate c r.addr d _)

end GateTrace

/-! ## The obligations of `00_scope.md` -/

/-- Settles O15: every operation keeps the gate trace, and taking a stimulus off the queue does not touch it. -/
theorem stepKeepsGateTrace : Obligations.StepKeepsGateTrace := by
  intro s t hs hstep
  obtain ⟨-, rfl⟩ | ⟨w, rest, i, -, -, rfl⟩ := step_next_cases hstep
  · exact hs
  · exact perform_traceInv Config.machine i (s := { s with stimuli := rest }) hs

/-- Settles O6. -/
theorem stepRunsNextStimulus : Obligations.StepRunsNextStimulus :=
  fun _ _ _ _ hstimuli hdecode => step_of_decode_ok hstimuli hdecode

/-- Settles O8: the decoder gives back the operation whose word arrived. -/
theorem arrivingWordRunsNext : Obligations.ArrivingWordRunsNext := by
  refine ⟨fun s i => ?_, fun s => step_of_no_stimulus⟩
  rw [State.withFetchWord_encode]
  exact step_of_decode_ok (State.arrive_stimuli s (encode i)) (decode_encode i)

end Sys2Proof.Machine

/-! ## The invariants of the block (`10_state.md` R56, log entry 9)

For each operation only the clauses of `Block.Inv` that it can disturb are proved; the others are those of the state
before. -/

namespace Sys2Proof.Machine

section Admissible

variable {c : Config}

theorem Config.kickHalfcycles_ne_zero (h : c.admissible = true) : c.kickHalfcycles ≠ 0 := by
  simp only [Config.admissible, Bool.and_eq_true, decide_eq_true_eq] at h
  tauto

theorem Config.nLevels_pos (h : c.admissible = true) : 0 < c.nLevels := by
  simp only [Config.admissible, Bool.and_eq_true, decide_eq_true_eq] at h
  have hfull : c.fullIdx.val < c.nLevels := by tauto
  omega

theorem Config.frameBits_pos (h : c.admissible = true) : 0 < c.frameBits := by
  simp only [Config.admissible, Bool.and_eq_true, decide_eq_true_eq] at h
  tauto

theorem Config.frameBits_le (h : c.admissible = true) : c.frameBits ≤ 32 := by
  simp only [Config.admissible, Bool.and_eq_true, decide_eq_true_eq] at h
  tauto

/-- Each entry of the machine's table is at most the one before it, whatever the free values are (R171(b)). -/
theorem Config.tableAngle_succ_le (i : Nat) : Config.tableAngle (i + 1) ≤ Config.tableAngle i := by
  rw [Config.tableAngle]
  split
  · assumption
  · exact BitVec.le_refl _

theorem Config.machine_tableDecreases : Config.machine.tableDecreases = true := by
  simp [Config.tableDecreases, Config.machine, Config.machineTable, Config.tableAngle_succ_le]

/-- The machine's configuration is admissible: the table by its construction, the parameters by their values (R11). -/
theorem Config.machine_admissible : Config.machine.admissible = true := by
  rw [Config.admissible, Config.machine_tableDecreases]
  rfl

end Admissible

section Invariants

variable {c : Config} {b : Block}

/-- The block after reset meets the invariants: it is stopped at level 0 with the angle of that level (R57). -/
theorem Block.reset_inv (hc : c.admissible = true) : (Block.reset c).Inv c where
  level_lt := Config.nLevels_pos hc
  kicking := fun h => absurd rfl h
  settled := fun _ => rfl
  running := nofun
  bitCnt_lt := Config.frameBits_pos hc
  gate_armed := nofun
  irIdle_le := Nat.zero_le _
  kickCnt_le := Nat.zero_le _
  idle_bitCnt := fun _ => rfl
  lead_bitCnt := fun _ => rfl

/-! ### The firing engine and the mapper -/

/-- The kick-start countdown: while zero-crosses are left the block stays at full power, and the last one puts the angle
of the level back (`41_speed_mapper.md` R176). -/
theorem kickCountdown_inv (h : b.Inv c) : (kickCountdown c b).Inv c := by
  rw [kickCountdown_eq]
  by_cases h0 : b.kickCnt = 0
  · have h1 : b.kickCnt ≠ 1 := by rw [h0]; decide
    rw [if_pos h0, if_neg h1, ← h0]
    exact h
  · have hlast : b.kickCnt - 1 = 0 ↔ b.kickCnt = 1 := by constructor <;> intro hk <;> bv_omega
    have hdown : (b.kickCnt - 1).toNat ≤ b.kickCnt.toNat := by bv_omega
    rw [if_neg h0]
    obtain ⟨hrun, hlevel, hangle⟩ := h.kicking h0
    exact
      { h with
        kicking := fun hk => ⟨hrun, hlevel, (if_neg (mt hlast.2 hk)).trans hangle⟩
        settled := fun hk => if_pos (hlast.1 hk)
        kickCnt_le := hdown.trans h.kickCnt_le }

/-- `ZC`: the gate may conduct because the timer is armed in the same operation (`40_firing_engine.md` R151, R152). -/
theorem zeroCross_inv {s : State} (h : s.block.Inv c) : (zeroCross c s).block.Inv c := by
  rw [zeroCross_block]
  exact kickCountdown_inv { h with gate_armed := fun _ => rfl }

/-- `DT`: the expiry disarms the timer and leaves the gate at 0 (R154). -/
theorem delayTick_inv {s : State} (h : s.block.Inv c) : (delayTick s).block.Inv c := by
  cases ha : s.block.dlyArmed with
  | false => rwa [delayTick_idle s ha]
  | true =>
    by_cases hz : s.block.dlyCnt = 0
    · rw [delayTick_expiry s ha hz, expiry_block]
      exact { h with gate_armed := nofun }
    · rw [delayTick_count s ha hz]
      exact { h with }

/-- A stopped block is not in its kick-start. -/
theorem Block.Inv.kickCnt_of_stopped (h : b.Inv c) (hr : b.run = false) : b.kickCnt = 0 := by
  by_contra hk
  obtain ⟨hrun, -, -⟩ := h.kicking hk
  rw [hr] at hrun
  cases hrun

/-- The mapper, by the five cases of `41_speed_mapper.md` R173. -/
theorem applyLevel_inv (hc : c.admissible = true) (d : Byte) (h : b.Inv c) : (applyLevel c d b).Inv c := by
  have hlt : (clampLevel c d).val < c.nLevels := clampLevel_lt c d (Config.nLevels_pos hc)
  obtain ⟨-, heq⟩ | ⟨hn, -, -, heq⟩ | ⟨hn, hr, -, heq⟩ | ⟨hn, -, hk, heq⟩ | ⟨hn, -, hk, heq⟩ :=
    applyLevel_cases c d b <;> rw [heq]
  · exact
      { h with
        level_lt := Config.nLevels_pos hc
        kicking := fun hk => absurd rfl hk
        settled := fun _ => rfl
        running := nofun
        kickCnt_le := Nat.zero_le _ }
  · have hpos := clampLevel_pos c hn
    exact
      { h with
        level_lt := hlt
        kicking := fun _ => ⟨rfl, hpos, rfl⟩
        settled := fun hk => absurd hk (Config.kickHalfcycles_ne_zero hc)
        running := fun _ => hpos
        kickCnt_le := le_rfl }
  · exact
      { h with
        level_lt := hlt
        kicking := fun hk => absurd (h.kickCnt_of_stopped hr) hk
        settled := fun _ => rfl
        running := fun _ => clampLevel_pos c hn }
  · have hpos := clampLevel_pos c hn
    obtain ⟨hrun, -, hangle⟩ := h.kicking hk
    exact
      { h with
        level_lt := hlt
        kicking := fun _ => ⟨hrun, hpos, hangle⟩
        settled := fun hk' => absurd hk' hk
        running := fun _ => hpos }
  · exact
      { h with
        level_lt := hlt
        kicking := fun hk' => absurd hk hk'
        settled := fun _ => rfl
        running := fun _ => clampLevel_pos c hn }

/-- A write of the host reaches the invariants through the mapper only (`20_memory.md` R83). -/
theorem memWrite_inv (hc : c.admissible = true) (a : RegAddr) (d : Byte) (h : b.Inv c) : (memWrite c a d b).Inv c := by
  obtain heq | heq | heq | heq := memWrite_cases c a d b <;> rw [heq]
  · exact h
  · exact applyLevel_inv hc d h
  · exact { h with }
  · exact { h with }

/-! ### The timebase and the decoder -/

/-- `TB`: `IR_IDLE` saturates at `IR_IDLE_TICKS` (`42_timebase.md` R194). -/
theorem timebaseTick_inv (h : b.Inv c) : (timebaseTick c b).Inv c := by
  by_cases hw : c.tick (b.tbCnt + 1) = 0
  · have hidle : (BitVec.ofNat 2 (saturatedIdle c b)).toNat ≤ c.irIdleTicks.toNat :=
      (BitVec.toNat_ofNat _ _).trans_le ((Nat.mod_le _ _).trans (Nat.min_le_right _ _))
    rw [timebaseTick_wrap c b hw]
    exact { h with irIdle_le := hidle }
  · rw [timebaseTick_count c b hw]
    exact { h with }

/-- The prologue of an edge clears `IR_IDLE` (`43_ir_decoder.md` R207). -/
theorem edgePrologue_inv (lvl : Bool) (h : b.Inv c) : (edgePrologue c lvl b).block.Inv c :=
  { h with irIdle_le := Nat.zero_le _ }

/-- The decoder reset (R216). -/
theorem decoderReset_inv (hc : c.admissible = true) (h : b.Inv c) : (decoderReset b).Inv c :=
  { h with bitCnt_lt := Config.frameBits_pos hc, idle_bitCnt := fun _ => rfl, lead_bitCnt := fun _ => rfl }

/-- Before the first bit the decoder may go to any state. -/
theorem Block.Inv.goto_of_noBits (st : IrState) (h : b.Inv c) (h0 : b.bitCnt = 0) :
    Block.Inv c { b with irState := st } :=
  { h with idle_bitCnt := fun _ => h0, lead_bitCnt := fun _ => h0 }

/-- While a bit is measured, only the frame's length bounds the bit count. -/
theorem Block.Inv.goto_of_inBit {st : IrState} {n : BitVec 6} (h : b.Inv c) (hst : st = .highBit ∨ st = .lowBit)
    (hn : n.toNat < c.frameBits) : Block.Inv c { b with irState := st, bitCnt := n } := by
  obtain rfl | rfl := hst <;> exact { h with bitCnt_lt := hn, idle_bitCnt := nofun, lead_bitCnt := nofun }

/-- A bit that does not complete the frame leaves room for a further one (R215). -/
theorem Block.Inv.bitCnt_succ_lt (hc : c.admissible = true) (h : b.Inv c) (hne : (b.bitCnt + 1).toNat ≠ c.frameBits) :
    (b.bitCnt + 1).toNat < c.frameBits := by
  have hlt := h.bitCnt_lt
  have hle := Config.frameBits_le hc
  have hsucc : (b.bitCnt + 1).toNat = b.bitCnt.toNat + 1 := by bv_omega
  omega

/-- An infrared edge, by the state it finds (R208 to R217): it resets the decoder, goes on before the first bit, or goes
on within a frame. -/
theorem irEdge_inv (hc : c.admissible = true) (lvl : Bool) (h : b.Inv c) : (irEdge c lvl b).Inv c := by
  have hpro := edgePrologue_inv lvl h
  have hreset := decoderReset_inv hc hpro
  cases hst : b.irState with
  | idle =>
    cases lvl with
    | false =>
      rw [irEdge_idle_inactive c b hst h.bitCnt_lt]
      exact hpro
    | true =>
      rw [irEdge_idle_active c b hst (Config.frameBits_pos hc)]
      exact { hreset.goto_of_noBits .mark rfl with }
  | mark =>
    rw [irEdge_mark c lvl b hst h.bitCnt_lt]
    split
    · exact hpro.goto_of_noBits .space (h.lead_bitCnt (.inl hst))
    · exact hreset
  | space =>
    rw [irEdge_space c lvl b hst h.bitCnt_lt]
    exact hpro.goto_of_noBits _ (h.lead_bitCnt (.inr (.inl hst)))
  | highBit =>
    rw [irEdge_highBit c lvl b hst h.bitCnt_lt]
    split
    · exact hpro.goto_of_inBit (.inr rfl) h.bitCnt_lt
    · exact hreset
  | lowBit =>
    rw [irEdge_lowBit c lvl b hst]
    split
    · exact { hreset with }
    · split
      · exact { hreset with }
      · next hne => exact { hpro.goto_of_inBit (.inl rfl) (h.bitCnt_succ_lt hc hne) with }
  | repeatFrame =>
    rw [irEdge_repeatFrame c lvl b hst h.bitCnt_lt]
    split
    · exact { hpro.goto_of_noBits .idle (h.lead_bitCnt (.inr (.inr hst))) with }
    · exact hreset

/-- Every operation keeps the invariants under every admissible configuration. -/
theorem perform_inv {s : State} (hc : c.admissible = true) (i : Instr) (h : s.block.Inv c) :
    (perform c i s).block.Inv c := by
  obtain rfl | rfl | rfl | rfl | ⟨lvl, rfl⟩ | ⟨r, rfl⟩ | ⟨r, d, rfl⟩ := Instr.cases_access i
  · exact Block.reset_inv hc
  · exact zeroCross_inv h
  · exact delayTick_inv h
  · exact timebaseTick_inv h
  · rw [perform_edgeOp]
    exact irEdge_inv hc lvl h
  · rw [perform_readOp]
    exact h
  · rw [perform_writeOp]
    exact memWrite_inv hc r.addr d h

end Invariants

theorem State.resetOf_traceInv (c : Config) : (State.resetOf c).TraceInv := ⟨rfl, rfl⟩

/-- After reset the decoder is in Idle, which goes with either level of `ir`. -/
theorem Block.reset_levelInv (c : Config) : (Block.reset c).LevelInv := by
  simp [Block.LevelInv, Block.reset]

/-! ## The obligations of `10_state.md` R56 -/

/-- Settles O13: a step performs one operation at the machine's configuration, which is admissible, or nothing. -/
theorem stepKeepsInvariants : Obligations.StepKeepsInvariants := by
  intro s t hs hstep
  obtain ⟨-, rfl⟩ | ⟨w, rest, i, -, -, rfl⟩ := step_next_cases hstep
  · exact hs
  · exact perform_inv (s := { s with stimuli := rest }) Config.machine_admissible i hs

/-- Settles O14. -/
theorem operationKeepsInvariants : Obligations.OperationKeepsInvariants :=
  fun _ i _ hc hs => perform_inv hc i hs

/-- Settles O12. -/
theorem invariantsAtReset : Obligations.InvariantsAtReset :=
  ⟨Block.reset_inv Config.machine_admissible, State.resetOf_traceInv _, Block.reset_levelInv _,
    fun _ hc => Block.reset_inv hc⟩

end Sys2Proof.Machine

/-! ## The host register space (`20_memory.md` R82 to R84, R88)

The registers are views of the block, so a write reaches the views of the elements it writes and no others. -/

namespace Sys2Proof

/-- Each address has exactly one register (`30_encoding.md` R127). -/
theorem Reg.ofAddr_eq_iff {a : RegAddr} {r : Reg} : Reg.ofAddr a = r ↔ a = r.addr := by
  constructor
  · rintro rfl
    exact (Reg.addr_ofAddr a).symm
  · rintro rfl
    exact Reg.ofAddr_addr r

end Sys2Proof

namespace Sys2Proof.Machine

section Views

variable (c : Config) (b : Block) (d : Byte)

/-- `FRAME` in bytes: byte `k` is the digit of weight `256 ^ k` (`44_host_access.md` R249 to R252). -/
theorem viewFrame_toNat (k : Nat) : (viewFrame k b).toNat = b.frame.toNat / 256 ^ k % 256 := by
  rw [viewFrame, BitVec.extractLsb'_toNat, Nat.shiftRight_eq_div_pow, Nat.pow_mul]

/-- The four bytes of `FRAME` are its digits, the least significant first (R84). -/
theorem frame_toNat_eq_views :
    b.frame.toNat = (viewFrame 0 b).toNat + 256 * (viewFrame 1 b).toNat + 65536 * (viewFrame 2 b).toNat
      + 16777216 * (viewFrame 3 b).toNat := by
  have hlt : b.frame.toNat < 2 ^ 32 := b.frame.isLt
  simp only [viewFrame_toNat]
  omega

/-- `STATUS`, each bit with its weight (R244). -/
theorem viewStatus_toNat :
    (viewStatus b).toNat =
      b.run.toNat + 2 * (kickBit b).toNat + 4 * b.gate.toNat + 8 * b.dlyArmed.toNat + 16 * b.irLevel.toNat := by
  rw [viewStatus]
  generalize b.run = r, kickBit b = k, b.gate = g, b.dlyArmed = a, b.irLevel = l
  revert r k g a l
  decide

/-- `STATUS` above its bits `RUN` and `KICK` (R244). -/
theorem viewStatus_div_four :
    (viewStatus b).toNat / 4 = b.gate.toNat + 2 * b.dlyArmed.toNat + 4 * b.irLevel.toNat := by
  have hrun := b.run.toNat_lt
  have hkick := (kickBit b).toNat_lt
  rw [viewStatus_toNat]
  omega

/-- Write-1-to-clear, on the byte that `FLAGS` shows (R261). -/
theorem viewFlags_clearFlags (f : Flags) : viewFlags (clearFlags d f) = viewFlags f &&& ~~~d := by
  apply BitVec.eq_of_getLsbD_eq
  intro i hi
  interval_cases i <;> simp [viewFlags, clearFlags, bitAt]

/-- The mapper writes five elements, the start request always to 0 (`41_speed_mapper.md` R173). -/
theorem applyLevel_writes :
    ∃ n run kick angle, applyLevel c d b =
      { b with startReq := false, level := n, run := run, kickCnt := kick, phaseAngle := angle } := by
  obtain ⟨-, h⟩ | ⟨-, -, -, h⟩ | ⟨-, -, -, h⟩ | ⟨-, -, -, h⟩ | ⟨-, -, -, h⟩ := applyLevel_cases c d b <;>
    exact ⟨_, _, _, _, h⟩

/-- A written level reaches none of the registers from `FLAGS` on. -/
theorem regView_applyLevel {r : Reg} (hr : 4 ≤ r.addr.toNat) : regView (applyLevel c d b) r = regView b r := by
  obtain ⟨n, run, kick, angle, h⟩ := applyLevel_writes c b d
  rw [h]
  cases r with
  | level | ctrl | angle | status => exact absurd hr (by decide)
  | _ => rfl

/-- A written level takes the start request, whatever the case of R173. -/
theorem viewCtrl_applyLevel : viewCtrl (applyLevel c d b) = 0 := by
  obtain ⟨n, run, kick, angle, h⟩ := applyLevel_writes c b d
  rw [h]
  rfl

/-- Of `STATUS` a written level reaches `RUN` and `KICK` only. -/
theorem viewStatus_applyLevel_div_four :
    (viewStatus (applyLevel c d b)).toNat / 4 = (viewStatus b).toNat / 4 := by
  obtain ⟨n, run, kick, angle, h⟩ := applyLevel_writes c b d
  rw [h, viewStatus_div_four, viewStatus_div_four]

theorem regView_writeCtrl {r : Reg} (hr : r ≠ .ctrl) : regView (writeCtrl d b) r = regView b r := by
  cases r with
  | ctrl => exact absurd rfl hr
  | _ => rfl

theorem regView_writeFlags {r : Reg} (hr : r ≠ .flags) : regView (writeFlags d b) r = regView b r := by
  cases r with
  | flags => exact absurd rfl hr
  | _ => rfl

end Views

/-! ## The obligations of `20_memory.md` -/

/-- Settles O55: each writing access leaves the views of the elements that it does not write. -/
theorem writesReachOnlyTheirRegisters : Obligations.WritesReachOnlyTheirRegisters := by
  intro s d
  refine ⟨⟨_, exec_writeOp .level d s, rfl, fun a ha => ?_, ?_, ?_⟩,
    ⟨_, exec_writeOp .ctrl d s, rfl, fun a ha => ?_⟩, ⟨_, exec_writeOp .flags d s, rfl, fun a ha => ?_, ?_⟩⟩
  · exact regView_applyLevel Config.machine s.block d (by rwa [Reg.addr_ofAddr])
  · exact viewCtrl_applyLevel Config.machine s.block d
  · exact viewStatus_applyLevel_div_four Config.machine s.block d
  · exact regView_writeCtrl s.block d (mt Reg.ofAddr_eq_iff.1 ha)
  · exact regView_writeFlags s.block d (mt Reg.ofAddr_eq_iff.1 ha)
  · exact viewFlags_clearFlags d s.block.flags

/-- Settles O10. -/
theorem execIsPerform : Obligations.ExecIsPerform := exec_eq_perform

/-- Settles O50: the reads return the bytes of `FRAME`, its digits to the base 256. -/
theorem readFrameLittleEndian : Obligations.ReadFrameLittleEndian := fun s =>
  ⟨viewFrame 0 s.block, viewFrame 1 s.block, viewFrame 2 s.block, viewFrame 3 s.block,
    exec_readOp .frame0 s, exec_readOp .frame1 s, exec_readOp .frame2 s, exec_readOp .frame3 s,
    frame_toNat_eq_views s.block⟩

end Sys2Proof.Machine

/-! ## The words of the operations (`30_encoding.md` R118 to R129)

The fields of a word as numbers, then what the decoder does by the word's class; the obligations read the rest off. -/

namespace Sys2Proof

section Accept

variable {zero : Bool} {i j : Instr}

theorem accept_eq_ok_iff : accept zero i = .ok j ↔ zero = true ∧ i = j := by
  cases zero <;> simp [accept]

theorem accept_eq_mustBeZero_iff : accept zero i = .error .mustBeZero ↔ ¬zero = true := by
  cases zero <;> simp [accept]

theorem accept_ne_reservedClass : accept zero i ≠ .error .reservedClass := by
  cases zero <;> simp [accept]

end Accept

section Fields

variable (w : OpWord)

theorem opClass_toNat : (opClass w).toNat = w.toNat / 4096 := by
  have hlt : w.toNat < 65536 := w.isLt
  rw [opClass, BitVec.extractLsb'_toNat, Nat.shiftRight_eq_div_pow]
  omega

theorem opZero_eq_zero_iff : opZero w = 0 ↔ w.toNat % 4096 < 2 := by
  have hz : (opZero w).toNat = w.toNat / 2 % 2048 := by
    rw [opZero, BitVec.extractLsb'_toNat, Nat.shiftRight_eq_div_pow]
  bv_omega

theorem opLvl_eq_false_iff : opLvl w = false ↔ w.toNat % 2 = 0 := by
  simp [opLvl, BitVec.getLsbD, Nat.testBit_zero]

theorem opData_eq_zero_iff : opData w = 0 ↔ w.toNat % 256 = 0 := by
  have hd : (opData w).toNat = w.toNat % 256 := by rw [opData, BitVec.extractLsb'_toNat, Nat.shiftRight_zero]
  bv_omega

/-- The must-be-zero field of classes 0 to 3 is `op[11:0]`. -/
theorem opZero_and_not_opLvl_iff : (opZero w == 0 && !opLvl w) = true ↔ w.toNat % 4096 = 0 := by
  rw [Bool.and_eq_true_iff, beq_iff_eq, Bool.not_eq_true', opZero_eq_zero_iff, opLvl_eq_false_iff]
  omega

/-- What the decoder does, by the class of the word (R123, R124): the four stimuli without `lvl`, the edges, the reads, the
writes, and the reserved classes. -/
theorem decode_cases :
    ((opClass w).toNat ≤ 3 ∧
        ∃ i, encode i = formatEV (opClass w) false ∧ decode w = accept (opZero w == 0 && !opLvl w) i) ∨
      (opClass w = 0x4 ∧ decode w = accept (opZero w == 0) (edgeOp (opLvl w))) ∨
      (opClass w = 0x8 ∧ decode w = accept (opData w == 0) (Reg.ofAddr (opAddr w)).readOp) ∨
      (opClass w = 0x9 ∧ decode w = .ok ((Reg.ofAddr (opAddr w)).writeOp (opData w))) ∨
      ((5 ≤ (opClass w).toNat ∧ (opClass w).toNat ≤ 7 ∨ 10 ≤ (opClass w).toNat) ∧
        decode w = .error .reservedClass) := by
  have hclass (k : BitVec 4) (h : (opClass w).toNat = k.toNat) : opClass w = k := BitVec.eq_of_toNat_eq h
  unfold decode
  split
  case h_1 h => exact .inl ⟨by omega, .rst, by rw [hclass 0x0 h]; rfl, rfl⟩
  case h_2 h => exact .inl ⟨by omega, .zc, by rw [hclass 0x1 h]; rfl, rfl⟩
  case h_3 h => exact .inl ⟨by omega, .dt, by rw [hclass 0x2 h]; rfl, rfl⟩
  case h_4 h => exact .inl ⟨by omega, .tb, by rw [hclass 0x3 h]; rfl, rfl⟩
  case h_5 h => exact .inr (.inl ⟨hclass _ h, rfl⟩)
  case h_6 h => exact .inr (.inr (.inl ⟨hclass _ h, rfl⟩))
  case h_7 h => exact .inr (.inr (.inr (.inl ⟨hclass _ h, rfl⟩)))
  case h_8 =>
    refine .inr (.inr (.inr (.inr ⟨?_, rfl⟩)))
    simp only [imp_false] at *
    omega

end Fields

theorem encode_edgeOp (lvl : Bool) : encode (edgeOp lvl) = formatEV 0x4 lvl := by
  cases lvl <;> rfl

/-- An accepted word is the word of the operation read: a field that the decoder does not read must be zero. -/
theorem encode_of_decode {w : OpWord} {i : Instr} (h : decode w = .ok i) : encode i = w := by
  obtain ⟨-, j, henc, hdec⟩ | ⟨hk, hdec⟩ | ⟨hk, hdec⟩ | ⟨hk, hdec⟩ | ⟨-, hdec⟩ := decode_cases w <;> rw [hdec] at h
  · obtain ⟨hzero, rfl⟩ := accept_eq_ok_iff.1 h
    obtain ⟨hz, hl⟩ : opZero w = 0 ∧ opLvl w = false := by simpa using hzero
    rw [henc, ← hl, formatEV_fields w hz]
  · obtain ⟨hzero, rfl⟩ := accept_eq_ok_iff.1 h
    rw [encode_edgeOp, ← hk, formatEV_fields w (eq_of_beq hzero)]
  · obtain ⟨hzero, rfl⟩ := accept_eq_ok_iff.1 h
    rw [encode_readOp, ← hk, ← eq_of_beq hzero, formatHB_fields]
  · cases h
    rw [encode_writeOp, ← hk, formatHB_fields]
  · cases h

/-- The decoder and the encoder are inverse to each other. -/
theorem decode_eq_ok_iff {w : OpWord} {i : Instr} : decode w = .ok i ↔ encode i = w := by
  constructor
  · exact encode_of_decode
  · rintro rfl
    exact decode_encode i

/-! ### The text form (R126, R127) -/

theorem immByte_eq_ofNat {imm : Int} (hlo : -128 ≤ imm) (hhi : imm ≤ 255) :
    immByte imm = BitVec.ofNat 8 (if imm < 0 then imm + 256 else imm).toNat := by
  apply BitVec.eq_of_toNat_eq
  rw [immByte, BitVec.toNat_ofInt, BitVec.toNat_ofNat]
  split <;> omega

@[simp] theorem RegRef.reg_number_addr (r : Reg) : (RegRef.number r.addr.toNat).reg = r := by
  simp [RegRef.reg]

@[simp] theorem RegRef.wellFormed_number_addr (r : Reg) : (RegRef.number r.addr.toNat).wellFormed = true :=
  decide_eq_true (Nat.le_of_lt_succ r.addr.isLt)

theorem assemble_rd {r : RegRef} (hr : r.wellFormed = true) : assemble (.rd r) = some r.reg.readOp := by
  simp [assemble, Line.wellFormed, hr]

theorem assemble_wr {r : RegRef} {imm : Int} (hr : r.wellFormed = true) (hlo : -128 ≤ imm) (hhi : imm ≤ 255) :
    assemble (.wr r imm) = some (r.reg.writeOp (immByte imm)) := by
  simp [assemble, Line.wellFormed, hr, hlo, hhi]

/-! ### The obligations -/

/-- Settles O1. -/
theorem decodeOfEncode : Obligations.DecodeOfEncode := fun i _ => decode_encode i

/-- Settles O2. -/
theorem encodeOfDecode : Obligations.EncodeOfDecode := fun _ _ => encode_of_decode

/-- Settles O3: in each class both refusals are conditions on the fields, and so on the word as a number. -/
theorem decodeRefusesReservedWords : Obligations.DecodeRefusesReservedWords := by
  intro w
  have hclass := opClass_toNat w
  obtain ⟨hk, i, -, hdec⟩ | ⟨hk, hdec⟩ | ⟨hk, hdec⟩ | ⟨hk, hdec⟩ | ⟨hk, hdec⟩ := decode_cases w <;> rw [hdec]
  · simp only [accept_ne_reservedClass, accept_eq_mustBeZero_iff, opZero_and_not_opLvl_iff, false_iff]
    omega
  · have hk4 : (opClass w).toNat = 4 := congrArg BitVec.toNat hk
    simp only [accept_ne_reservedClass, accept_eq_mustBeZero_iff, beq_iff_eq, opZero_eq_zero_iff, false_iff]
    omega
  · have hk8 : (opClass w).toNat = 8 := congrArg BitVec.toNat hk
    simp only [accept_ne_reservedClass, accept_eq_mustBeZero_iff, beq_iff_eq, opData_eq_zero_iff, false_iff]
    omega
  · have hk9 : (opClass w).toNat = 9 := congrArg BitVec.toNat hk
    simp only [reduceCtorEq, false_iff]
    omega
  · simp only [Except.error.injEq, reduceCtorEq, true_iff, false_iff]
    omega

/-- Settles O5. -/
theorem assembledOperands : Obligations.AssembledOperands := by
  intro r imm hlo hhi
  have hname : assemble (.wr (.name r) imm) = some (r.writeOp (immByte imm)) := assemble_wr rfl hlo hhi
  refine ⟨?_, ?_, ?_⟩
  · rw [hname, immByte_eq_ofNat hlo hhi]
  · rw [hname, assemble_wr (RegRef.wellFormed_number_addr r) hlo hhi, RegRef.reg_number_addr]
  · rw [assemble_rd (RegRef.wellFormed_number_addr r), RegRef.reg_number_addr]

/-- Settles O4: a word decodes to an operation exactly if it is the operation's word, which leaves the encodings. -/
theorem workedEncodings : Obligations.WorkedEncodings := by
  unfold Obligations.WorkedEncodings
  simp only [decode_eq_ok_iff]
  decide

end Sys2Proof

namespace Sys2Proof.Machine

/-- Settles O7. -/
theorem stepRefusesReservedWords : Obligations.StepRefusesReservedWords :=
  fun _ _ _ hstimuli => ⟨step_of_decode_error hstimuli, step_of_decode_error hstimuli⟩

/-! ## The frame checksum (`30_encoding.md` R114, R115)

A frame is valid exactly if each bit of its bytes 0 and 2 is the complement of the bit 8 places above it. The condition
pairs the 32 bits; the direction does not enter it, and reversing the bits maps pairs to pairs. -/

section Checksum

variable {w : FrameWord} {dir : AccDir}

/-- Two neighbouring bytes of a word are complements of each other, bit by bit. -/
theorem complementBytes_iff (k : Nat) :
    (w.extractLsb' k 8 ^^^ w.extractLsb' (k + 8) 8 == 0xFF) = true ↔
      ∀ j, j < 8 → w.getLsbD (k + j + 8) = !w.getLsbD (k + j) := by
  rw [beq_iff_eq, show (0xFF : Byte) = BitVec.allOnes 8 from rfl, BitVec.eq_of_getLsbD_eq_iff]
  refine forall₂_congr fun j hj => ?_
  simp only [BitVec.getLsbD_xor, BitVec.getLsbD_extractLsb', BitVec.getLsbD_allOnes, hj, decide_true, Bool.true_and,
    Nat.add_right_comm k 8 j]
  cases w.getLsbD (k + j) <;> simp

theorem frameValid_left : frameValid .left w = frameValid .right w := by
  simp only [frameValid, frameFields, BitVec.xor_comm (w.extractLsb' 24 8), BitVec.xor_comm (w.extractLsb' 8 8)]
  exact Bool.and_comm _ _

theorem frameValid_right_iff :
    frameValid .right w = true ↔ ∀ i, i < 32 → i / 8 % 2 = 0 → w.getLsbD (i + 8) = !w.getLsbD i := by
  have hbytes : frameValid .right w = true ↔
      (w.extractLsb' 0 8 ^^^ w.extractLsb' (0 + 8) 8 == 0xFF) = true
        ∧ (w.extractLsb' 16 8 ^^^ w.extractLsb' (16 + 8) 8 == 0xFF) = true := Bool.and_eq_true_iff
  rw [hbytes, complementBytes_iff, complementBytes_iff]
  constructor
  · rintro ⟨haddr, hcmd⟩ i hi hlow
    by_cases h16 : i < 16
    · simpa using haddr i (by omega)
    · simpa [Nat.add_sub_cancel' (Nat.le_of_not_lt h16)] using hcmd (i - 16) (by omega)
  · intro h
    exact ⟨fun j hj => h _ (by omega) (by omega), fun j hj => h _ (by omega) (by omega)⟩

theorem frameValid_iff :
    frameValid dir w = true ↔ ∀ i, i < 32 → i / 8 % 2 = 0 → w.getLsbD (i + 8) = !w.getLsbD i := by
  cases dir with
  | right => exact frameValid_right_iff
  | left => rw [frameValid_left, frameValid_right_iff]

/-- The pair of bits `i` and `i + 8` goes to the bits `31 - i` and `23 - i`, a pair as well. -/
theorem frameValid_reverse_of_valid (h : frameValid dir w = true) : frameValid dir w.reverse = true := by
  rw [frameValid_iff] at h ⊢
  intro i hi hlow
  have hrev (j : Nat) (hj : j < 32) : w.reverse.getLsbD j = w.getLsbD (31 - j) := by
    rw [BitVec.getLsbD_reverse, BitVec.getMsbD_eq_getLsbD, decide_eq_true hj, Bool.true_and]
  have hpair : w.getLsbD (31 - i) = !w.getLsbD (23 - i) := by
    rw [show 31 - i = 23 - i + 8 by omega]
    exact h (23 - i) (by omega) (by omega)
  rw [hrev i hi, hrev (i + 8) (by omega), hpair, Bool.not_not, show 31 - (i + 8) = 23 - i by omega]

theorem frameValid_reverse : frameValid dir w.reverse = frameValid dir w := by
  rw [Bool.eq_iff_iff]
  refine ⟨fun h => ?_, frameValid_reverse_of_valid⟩
  simpa using frameValid_reverse_of_valid h

theorem getLsbD_flip (k : Nat) {i : Nat} (hi : i < 32) :
    (w ^^^ (1#32 <<< k)).getLsbD i = (w.getLsbD i ^^ decide (i = k)) := by
  rw [BitVec.getLsbD_xor, ← BitVec.twoPow_eq, BitVec.getLsbD_twoPow]
  by_cases hik : i = k
  · subst hik
    simp [hi]
  · simp [hik, Ne.symm hik]

/-- Each bit is in exactly one pair, and flipping it makes the two bits of that pair equal. -/
theorem frameValid_flip {k : Nat} (hk : k < 32) (h : frameValid dir w = true) :
    frameValid dir (w ^^^ (1#32 <<< k)) = false := by
  rw [Bool.eq_false_iff]
  intro hflip
  obtain ⟨i, hi, hlow, hik⟩ : ∃ i, i < 24 ∧ i / 8 % 2 = 0 ∧ (k = i ∨ k = i + 8) := by
    by_cases hlow : k / 8 % 2 = 0
    · exact ⟨k, by omega, hlow, .inl rfl⟩
    · exact ⟨k - 8, by omega, by omega, .inr (by omega)⟩
  have hold := frameValid_iff.1 h i (by omega) hlow
  have hnew := frameValid_iff.1 hflip i (by omega) hlow
  rw [getLsbD_flip k (by omega), getLsbD_flip k (by omega), hold] at hnew
  obtain rfl | rfl := hik <;> simp at hnew

end Checksum

/-- Settles O58. -/
theorem frameChecksum : Obligations.FrameChecksum :=
  ⟨fun _ => frameValid_left.trans frameValid_reverse, fun _ _ _ => frameValid_flip⟩

end Sys2Proof.Machine

/-! ## The firing engine (`40_firing_engine.md` R150 to R160)

Only `RST`, `ZC` and `DT` reach the gate, its trace and the delay timer. A claim about a half-cycle is therefore an
invariant that `ZC` sets up, `DT` and `RST` keep, and every other operation does not touch. -/

namespace Sys2Proof.Machine

theorem State.ext {s t : State} (hblock : s.block = t.block) (hgate : s.gateTrace = t.gateTrace)
    (hread : s.readTrace = t.readTrace) (hstimuli : s.stimuli = t.stimuli) : s = t := by
  cases s
  cases t
  simp_all

/-! ### What `ZC` and `DT` do as a whole -/

section Operations

variable (c : Config) (s : State)

/-- `ZC` (R150): the reload and the forced conduction read the angle as it is before the countdown changes it. -/
theorem zeroCross_eq :
    zeroCross c s =
      { s with
        block :=
          { s.block with
            hcCnt := s.block.hcCnt + 1
            flags := { s.block.flags with zcF := true }
            dlyCnt := s.block.phaseAngle
            dlyArmed := true
            gate := s.block.gate || atFullSpeed c s.block
            kickCnt := if s.block.kickCnt = 0 then 0 else s.block.kickCnt - 1
            phaseAngle := if s.block.kickCnt = 1 then lutAt c s.block.level else s.block.phaseAngle }
        gateTrace :=
          if s.block.gate = false ∧ atFullSpeed c s.block = true then s.gateTrace ++ [true] else s.gateTrace } := by
  obtain ⟨hread, hstimuli⟩ := zeroCross_other c s
  exact State.ext ((zeroCross_block c s).trans (kickCountdown_eq c _)) (zeroCross_gateTrace c s) hread hstimuli

/-- The expiry (R154). -/
theorem expiry_eq :
    expiry s =
      { s with
        block := { s.block with dlyArmed := false, gate := false }
        gateTrace := s.gateTrace ++
          (if s.block.gate then [false] else if s.block.run then [true, false] else []) } := by
  obtain ⟨hread, hstimuli⟩ := expiry_other s
  exact State.ext (expiry_block s) (expiry_gateTrace s) hread hstimuli

/-- `DT` finds the timer idle, counting, or at its end (R153). -/
theorem delayTick_cases :
    (s.block.dlyArmed = false ∧ delayTick s = s)
      ∨ (s.block.dlyArmed = true ∧ s.block.dlyCnt ≠ 0
          ∧ delayTick s = { s with block := { s.block with dlyCnt := s.block.dlyCnt - 1 } })
      ∨ (s.block.dlyArmed = true ∧ s.block.dlyCnt = 0 ∧ delayTick s = expiry s) := by
  cases ha : s.block.dlyArmed with
  | false => exact .inl ⟨rfl, delayTick_idle s ha⟩
  | true =>
    by_cases hz : s.block.dlyCnt = 0
    · exact .inr (.inr ⟨rfl, hz, delayTick_expiry s ha hz⟩)
    · exact .inr (.inl ⟨rfl, hz, delayTick_count s ha hz⟩)

/-- The condition of forced conduction on the machine, in numbers (R152). -/
theorem atFullSpeed_machine (b : Block) :
    atFullSpeed Config.machine b =
      (b.run && decide (b.phaseAngle.toNat ≤ (lutAt Config.machine 9).toNat)) := rfl

/-- A fan that does not run is not forced (R152). -/
theorem atFullSpeed_of_stopped {b : Block} (h : b.run = false) : atFullSpeed c b = false := by
  rw [atFullSpeed, h, Bool.false_and]

end Operations

/-! ### The operations that leave the gate and the delay timer alone -/

/-- Two states with the same gate, the same gate trace and the same delay timer. -/
structure State.SameFiring (s t : State) : Prop where
  gateTrace : t.gateTrace = s.gateTrace
  gate : t.block.gate = s.block.gate
  dlyArmed : t.block.dlyArmed = s.block.dlyArmed
  dlyCnt : t.block.dlyCnt = s.block.dlyCnt

/-- What leaves the firing engine's half of the block alone leaves the gate and the timer alone. -/
theorem State.SameFiring.of_firingHalf {s : State} {f : Block → Block}
    (h : (f s.block).firingHalf = s.block.firingHalf) : s.SameFiring (s.mapBlock f) where
  gateTrace := rfl
  gate := congrArg FiringHalf.gate h
  dlyArmed := congrArg FiringHalf.dlyArmed h
  dlyCnt := congrArg FiringHalf.dlyCnt h

/-- No write of the host reaches the timer (`44_host_access.md` R277). -/
theorem memWrite_timer (c : Config) (a : RegAddr) (d : Byte) (b : Block) :
    (memWrite c a d b).dlyArmed = b.dlyArmed ∧ (memWrite c a d b).dlyCnt = b.dlyCnt := by
  obtain h | h | h | h := memWrite_cases c a d b <;> rw [h]
  · exact ⟨rfl, rfl⟩
  · obtain ⟨-, hcnt, harmed, -, -⟩ := applyLevel_firing c b d
    exact ⟨harmed, hcnt⟩
  · exact ⟨rfl, rfl⟩
  · exact ⟨rfl, rfl⟩

/-- Every operation but `RST`, `ZC` and `DT` leaves the gate and the timer alone. -/
theorem Instr.cases_firing (c : Config) (s : State) (i : Instr) :
    i = .rst ∨ i = .zc ∨ i = .dt ∨ s.SameFiring (perform c i s) := by
  obtain rfl | rfl | rfl | rfl | ⟨lvl, rfl⟩ | ⟨r, rfl⟩ | ⟨r, d, rfl⟩ := Instr.cases_access i
  · exact .inl rfl
  · exact .inr (.inl rfl)
  · exact .inr (.inr (.inl rfl))
  · exact .inr (.inr (.inr (.of_firingHalf (timebaseTick_firingHalf c _))))
  · rw [perform_edgeOp]
    exact .inr (.inr (.inr (.of_firingHalf (irEdge_firingHalf c lvl _))))
  · rw [perform_readOp]
    exact .inr (.inr (.inr ⟨rfl, rfl, rfl, rfl⟩))
  · rw [perform_writeOp]
    obtain ⟨harmed, hcnt⟩ := memWrite_timer c r.addr d s.block
    exact .inr (.inr (.inr ⟨rfl, memWrite_gate c r.addr d s.block, harmed, hcnt⟩))

/-! ### The delay of a half-cycle (R156) -/

/-- The delay timer `n` ticks after a reload with the angle `a`. -/
def Block.TimerAfter (a n : Nat) (b : Block) : Prop :=
  b.dlyArmed = decide (n ≤ a) ∧ b.dlyCnt.toNat = a - n

theorem State.SameFiring.timerAfter {s t : State} {a n : Nat} (h : s.SameFiring t) (hs : s.block.TimerAfter a n) :
    t.block.TimerAfter a n := by
  obtain ⟨harmed, hcnt⟩ := hs
  exact ⟨h.dlyArmed.trans harmed, (congrArg BitVec.toNat h.dlyCnt).trans hcnt⟩

/-- `ZC` reloads the timer (R151). -/
theorem zeroCross_timerAfter (c : Config) (s : State) :
    (zeroCross c s).block.TimerAfter s.block.phaseAngle.toNat 0 := by
  rw [zeroCross_eq]
  exact ⟨(decide_eq_true (Nat.zero_le _)).symm, rfl⟩

/-- `DT` is one tick of the timer; the one that finds the count at 0 disarms it (R153, R154). -/
theorem delayTick_timerAfter {s : State} {a n : Nat} (h : s.block.TimerAfter a n) :
    (delayTick s).block.TimerAfter a (n + 1) := by
  obtain ⟨harmed, hcnt⟩ := h
  obtain ⟨hidle, heq⟩ | ⟨hon, hz, heq⟩ | ⟨hon, hz, heq⟩ := delayTick_cases s <;> rw [heq]
  · have hlt : ¬ n ≤ a := of_decide_eq_false (harmed.symm.trans hidle)
    exact ⟨hidle.trans (decide_eq_false (by omega)).symm, by omega⟩
  · have hdown : (s.block.dlyCnt - 1).toNat = s.block.dlyCnt.toNat - 1 := by bv_omega
    have hpos : s.block.dlyCnt.toNat ≠ 0 := by bv_omega
    exact ⟨hon.trans (decide_eq_true (by omega)).symm, hdown.trans (by omega)⟩
  · have hle : n ≤ a := of_decide_eq_true (harmed.symm.trans hon)
    have hend : s.block.dlyCnt.toNat = 0 := by rw [hz]; rfl
    rw [expiry_block]
    exact ⟨(decide_eq_false (by omega)).symm, by dsimp only; omega⟩

/-- Between two reloads the timer counts the `DT` operations and nothing else. -/
theorem runOps_timerAfter (c : Config) {ops : List Instr} (hzc : .zc ∉ ops) (hrst : .rst ∉ ops) {s : State}
    {a n : Nat} (h : s.block.TimerAfter a n) : (runOps c ops s).block.TimerAfter a (n + ops.count .dt) := by
  induction ops generalizing s n with
  | nil => exact h
  | cons i ops ih =>
    obtain ⟨hi_zc, hops_zc⟩ := not_or.mp (mt List.mem_cons.mpr hzc)
    obtain ⟨hi_rst, hops_rst⟩ := not_or.mp (mt List.mem_cons.mpr hrst)
    rw [runOps_cons]
    by_cases hdt : i = .dt
    · subst hdt
      rw [List.count_cons_self, ← Nat.add_assoc, Nat.add_right_comm]
      exact ih hops_zc hops_rst (delayTick_timerAfter h)
    · rw [List.count_cons_of_ne hdt]
      obtain rfl | rfl | rfl | hsame := Instr.cases_firing c s i
      · exact absurd rfl hi_rst
      · exact absurd rfl hi_zc
      · exact absurd rfl hdt
      · exact ih hops_zc hops_rst (hsame.timerAfter h)

/-! ### The pulses of a half-cycle (R158) -/

/-- The pulses that may still come before the next `ZC`: one while the timer is armed and the gate is not conductive,
none once it has expired, or where the gate conducts already. -/
def Block.pulsesLeft (b : Block) : Nat := if b.dlyArmed && !b.gate then 1 else 0

theorem Block.pulsesLeft_le (b : Block) : b.pulsesLeft ≤ 1 := by
  unfold Block.pulsesLeft
  split <;> omega

theorem Block.pulsesLeft_of_idle {b : Block} (h : b.dlyArmed = false) : b.pulsesLeft = 0 := by
  simp [Block.pulsesLeft, h]

theorem Block.pulsesLeft_of_gate {b : Block} (h : b.gate = true) : b.pulsesLeft = 0 := by
  simp [Block.pulsesLeft, h]

theorem Block.pulsesLeft_of_armed {b : Block} (ha : b.dlyArmed = true) (hg : b.gate = false) : b.pulsesLeft = 1 := by
  simp [Block.pulsesLeft, ha, hg]

/-- From `s` to `t` the gate trace has gained a part whose 1s, with the pulses left in `t`, are at most `k`. -/
def State.GainsWithin (k : Nat) (s t : State) : Prop :=
  ∃ gained : List Bool, t.gateTrace = s.gateTrace ++ gained ∧ gained.count true + t.block.pulsesLeft ≤ k

theorem State.GainsWithin.of_unchanged {s t : State} {k : Nat} (htrace : t.gateTrace = s.gateTrace)
    (hk : t.block.pulsesLeft ≤ k) : s.GainsWithin k t :=
  ⟨[], htrace.trans (List.append_nil _).symm, (Nat.zero_add _).trans_le hk⟩

theorem State.GainsWithin.trans {s t u : State} {k : Nat} (hst : s.GainsWithin k t)
    (htu : t.GainsWithin t.block.pulsesLeft u) : s.GainsWithin k u := by
  obtain ⟨first, htrace, hfirst⟩ := hst
  obtain ⟨second, htrace', hsecond⟩ := htu
  refine ⟨first ++ second, by rw [htrace', htrace, List.append_assoc], ?_⟩
  rw [List.count_append]
  omega

/-- `ZC` gains a 1 only where it leaves the gate conductive, and then no pulse is left (R152, R158). -/
theorem zeroCross_gainsWithin (c : Config) (s : State) : s.GainsWithin 1 (zeroCross c s) := by
  by_cases hforce : s.block.gate = false ∧ atFullSpeed c s.block = true
  · have hgate : (zeroCross c s).block.gate = true := by simp [zeroCross_eq, hforce]
    refine ⟨[true], by rw [zeroCross_gateTrace, if_pos hforce], ?_⟩
    rw [Block.pulsesLeft_of_gate hgate]
    rfl
  · exact .of_unchanged (by rw [zeroCross_gateTrace, if_neg hforce]) (Block.pulsesLeft_le _)

/-- `DT` gains a 1 only at the expiry, which spends the pulse that was left (R154). -/
theorem delayTick_gainsWithin (s : State) : s.GainsWithin s.block.pulsesLeft (delayTick s) := by
  obtain ⟨-, heq⟩ | ⟨-, -, heq⟩ | ⟨harmed, -, heq⟩ := delayTick_cases s <;> rw [heq]
  · exact .of_unchanged rfl le_rfl
  · exact .of_unchanged rfl le_rfl
  · refine ⟨_, expiry_gateTrace s, ?_⟩
    have hspent : (expiry s).block.pulsesLeft = 0 := by
      rw [expiry_block]
      exact Block.pulsesLeft_of_idle rfl
    rw [hspent]
    cases hg : s.block.gate with
    | true => simp
    | false =>
      rw [Block.pulsesLeft_of_armed harmed hg]
      cases s.block.run <;> simp

/-- `RST` gains at most a 0 and disarms the timer (`70_reset_and_hazards.md` R350). -/
theorem resetOp_gainsWithin (c : Config) (s : State) (k : Nat) : s.GainsWithin k (resetOp c s) := by
  have hidle : (resetOp c s).block.pulsesLeft = 0 := Block.pulsesLeft_of_idle rfl
  cases hg : s.block.gate with
  | false => exact .of_unchanged (by simp [resetOp_gateTrace, hg]) (hidle.trans_le (Nat.zero_le k))
  | true => exact ⟨[false], by simp [resetOp_gateTrace, hg], by rw [hidle]; exact Nat.zero_le k⟩

/-- Whatever is no `ZC` gains no more 1s than pulses were left. -/
theorem perform_gainsWithin (c : Config) {i : Instr} (hi : i ≠ .zc) (s : State) :
    s.GainsWithin s.block.pulsesLeft (perform c i s) := by
  obtain rfl | rfl | rfl | hsame := Instr.cases_firing c s i
  · exact resetOp_gainsWithin c s _
  · exact absurd rfl hi
  · exact delayTick_gainsWithin s
  · have hleft : (perform c i s).block.pulsesLeft = s.block.pulsesLeft := by
      rw [Block.pulsesLeft, hsame.dlyArmed, hsame.gate, Block.pulsesLeft]
    exact .of_unchanged hsame.gateTrace hleft.le

/-! ### The obligations of `40_firing_engine.md` -/

/-- Settles O21: `ZC` reloads the timer, and each `DT` after it is one tick. -/
theorem expiryAfterAnglePlusOneTicks : Obligations.ExpiryAfterAnglePlusOneTicks := by
  intro c s ops hzc hrst
  have h := runOps_timerAfter c hzc hrst (zeroCross_timerAfter c s)
  rwa [Nat.zero_add] at h

/-- Settles O22: `ZC` leaves at most one pulse, counted with the 1 it may gain itself, and nothing but a further `ZC`
gives a new one. -/
theorem onePulsePerHalfCycle : Obligations.OnePulsePerHalfCycle := by
  intro c s ops hzc
  have hrun : s.GainsWithin 1 (runOps c ops (zeroCross c s)) :=
    runOps_induction c _ ops
      (fun i hi t ht => ht.trans (perform_gainsWithin c (ne_of_mem_of_not_mem hi hzc) t))
      (zeroCross_gainsWithin c s)
  obtain ⟨gained, htrace, hcount⟩ := hrun
  exact ⟨gained, htrace, by omega⟩

/-- Settles O23: with `RUN` = 0 neither the forced conduction of `ZC` nor the pulse of the expiry happens, and all else
leaves the gate or releases it. -/
theorem gateNotDrivenWhileStopped : Obligations.GateNotDrivenWhileStopped := by
  intro i s hstop
  refine ⟨_, exec_eq_perform i s, ?_⟩
  obtain rfl | rfl | rfl | hsame := Instr.cases_firing Config.machine s i
  · rw [perform_rst, resetOp_gateTrace]
    refine ⟨?_, nofun⟩
    split
    · exact .inr rfl
    · exact .inl rfl
  · rw [perform_zc, zeroCross_eq, atFullSpeed_of_stopped _ hstop]
    simp
  · rw [perform_dt]
    obtain ⟨-, heq⟩ | ⟨-, -, heq⟩ | ⟨-, -, heq⟩ := delayTick_cases s <;> rw [heq]
    · exact ⟨.inl rfl, id⟩
    · exact ⟨.inl rfl, id⟩
    · rw [expiry_eq, hstop]
      cases s.block.gate <;> simp
  · exact ⟨.inl hsame.gateTrace, hsame.gate.symm.trans⟩

/-- Settles O19. -/
theorem zeroCrossResult : Obligations.ZeroCrossResult := by
  intro s
  rw [exec_eq_perform, perform_zc, zeroCross_eq]
  simp only [atFullSpeed_machine, Bool.and_eq_true, decide_eq_true_eq]

/-- Settles O20. -/
theorem delayTickResult : Obligations.DelayTickResult := by
  intro s
  rw [exec_eq_perform, perform_dt]
  refine ⟨fun ha => ?_, fun ha hz => ?_, fun ha hz => ?_⟩
  · rw [delayTick_idle s ha]
  · rw [delayTick_count s ha hz]
  · rw [delayTick_expiry s ha hz, expiry_eq]

end Sys2Proof.Machine

/-! ## The speed mapper (`41_speed_mapper.md` R171 to R182)

Only `RST`, `ZC` and `WR LEVEL` reach the mapper's elements. `WR LEVEL` is `applyLevel`, known by its five cases; `ZC` is one
step of the kick-start hold. -/

namespace Sys2Proof.Machine

/-! ### The Speed Table (R171) -/

theorem lutAt_machine (n : Level) : lutAt Config.machine n = Config.tableAngle n.val := by
  simp [lutAt, Config.machine, Config.machineTable]

/-- The machine's table falls over any number of levels, not only from one to the next. -/
theorem Config.tableAngle_antitone : Antitone fun i => (Config.tableAngle i).toNat :=
  antitone_nat_of_succ_le Config.tableAngle_succ_le

/-! ### A written level (R172, R173) -/

section WrittenLevel

variable (c : Config) (d : Byte) (b : Block) (s : State)

theorem perform_wrLevel : perform c (.wrLevel d) s = s.mapBlock (applyLevel c d) := rfl

theorem exec_wrLevel : exec (.wrLevel d) s = .next (s.mapBlock (applyLevel Config.machine d)) := rfl

theorem applyLevel_level : (applyLevel c d b).level = clampLevel c d := by
  obtain ⟨hn, h⟩ | ⟨-, -, -, h⟩ | ⟨-, -, -, h⟩ | ⟨-, -, -, h⟩ | ⟨-, -, -, h⟩ := applyLevel_cases c d b <;> rw [h]
  exact hn.symm

/-- The mapper keeps the angle or takes an entry of the table. -/
theorem applyLevel_phaseAngle :
    (applyLevel c d b).phaseAngle = b.phaseAngle ∨ ∃ n, (applyLevel c d b).phaseAngle = lutAt c n := by
  obtain ⟨-, h⟩ | ⟨-, -, -, h⟩ | ⟨-, -, -, h⟩ | ⟨-, -, -, h⟩ | ⟨-, -, -, h⟩ := applyLevel_cases c d b <;> rw [h]
  · exact .inr ⟨_, rfl⟩
  · exact .inr ⟨_, rfl⟩
  · exact .inr ⟨_, rfl⟩
  · exact .inl rfl
  · exact .inr ⟨_, rfl⟩

/-- The mapper starts a stopped fan that was asked to start, with a full hold at full speed, or it neither raises `RUN`
nor lengthens the hold. -/
theorem applyLevel_start_cases :
    (b.run = false ∧ b.startReq = true ∧ (applyLevel c d b).run = true
        ∧ (applyLevel c d b).kickCnt = c.kickHalfcycles ∧ (applyLevel c d b).phaseAngle = lutAt c c.fullIdx)
      ∨ (((applyLevel c d b).run = true → b.run = true) ∧ (applyLevel c d b).kickCnt.toNat ≤ b.kickCnt.toNat) := by
  obtain ⟨-, h⟩ | ⟨-, hrun, hreq, h⟩ | ⟨-, -, -, h⟩ | ⟨-, -, -, h⟩ | ⟨-, -, -, h⟩ := applyLevel_cases c d b <;> rw [h]
  · exact .inr ⟨nofun, Nat.zero_le _⟩
  · exact .inl ⟨hrun, hreq, rfl, rfl, rfl⟩
  · exact .inr ⟨id, le_rfl⟩
  · exact .inr ⟨id, le_rfl⟩
  · exact .inr ⟨id, le_rfl⟩

end WrittenLevel

/-! ### The operations that leave the mapper's elements alone -/

/-- Two blocks with the same `RUN`, the same level, the same hold and the same angle. -/
structure Block.SameMapper (b b' : Block) : Prop where
  run : b'.run = b.run
  level : b'.level = b.level
  kickCnt : b'.kickCnt = b.kickCnt
  phaseAngle : b'.phaseAngle = b.phaseAngle

theorem Block.SameMapper.of_firingHalf {b b' : Block} (h : b'.firingHalf = b.firingHalf) : b.SameMapper b' where
  run := congrArg FiringHalf.run h
  level := congrArg FiringHalf.level h
  kickCnt := congrArg FiringHalf.kickCnt h
  phaseAngle := congrArg FiringHalf.phaseAngle h

/-- The timer and the gate are apart from the mapper (`40_firing_engine.md` R153, R154). -/
theorem delayTick_sameMapper (s : State) : s.block.SameMapper (delayTick s).block := by
  obtain ⟨-, h⟩ | ⟨-, -, h⟩ | ⟨-, -, h⟩ := delayTick_cases s <;> rw [h]
  · exact ⟨rfl, rfl, rfl, rfl⟩
  · exact ⟨rfl, rfl, rfl, rfl⟩
  · rw [expiry_block]
    exact ⟨rfl, rfl, rfl, rfl⟩

/-- Of the writing registers only `LEVEL` reaches the mapper (`20_memory.md` R83). -/
theorem memWrite_sameMapper (c : Config) {r : Reg} (hr : r ≠ .level) (d : Byte) (b : Block) :
    b.SameMapper (memWrite c r.addr d b) := by
  cases r with
  | level => exact absurd rfl hr
  | _ => exact ⟨rfl, rfl, rfl, rfl⟩

/-- Every operation but `RST`, `ZC` and `WR LEVEL` leaves the mapper's elements alone. -/
theorem Instr.cases_mapper (c : Config) (s : State) (i : Instr) :
    i = .rst ∨ i = .zc ∨ (∃ d, i = .wrLevel d) ∨ s.block.SameMapper (perform c i s).block := by
  obtain rfl | rfl | rfl | rfl | ⟨lvl, rfl⟩ | ⟨r, rfl⟩ | ⟨r, d, rfl⟩ := Instr.cases_access i
  · exact .inl rfl
  · exact .inr (.inl rfl)
  · exact .inr (.inr (.inr (delayTick_sameMapper s)))
  · exact .inr (.inr (.inr (.of_firingHalf (timebaseTick_firingHalf c _))))
  · rw [perform_edgeOp]
    exact .inr (.inr (.inr (.of_firingHalf (irEdge_firingHalf c lvl _))))
  · rw [perform_readOp]
    exact .inr (.inr (.inr ⟨rfl, rfl, rfl, rfl⟩))
  · by_cases hr : r = .level
    · subst hr
      exact .inr (.inr (.inl ⟨d, rfl⟩))
    · rw [perform_writeOp]
      exact .inr (.inr (.inr (memWrite_sameMapper c hr d _)))

/-! ### The kick-start hold (R176) -/

section Hold

variable (c : Config) (s : State)

theorem zeroCross_run : (zeroCross c s).block.run = s.block.run := by rw [zeroCross_eq]

theorem zeroCross_level : (zeroCross c s).block.level = s.block.level := by rw [zeroCross_eq]

/-- `ZC` takes one zero-cross off the hold, down to 0. -/
theorem zeroCross_kickCnt_toNat : (zeroCross c s).block.kickCnt.toNat = s.block.kickCnt.toNat - 1 := by
  rw [zeroCross_eq]
  dsimp only
  split <;> bv_omega

/-- `ZC` changes the angle only where it ends the hold. -/
theorem zeroCross_phaseAngle :
    (zeroCross c s).block.phaseAngle =
      if s.block.kickCnt = 1 then lutAt c s.block.level else s.block.phaseAngle := by
  rw [zeroCross_eq]

end Hold

/-- The block `n` zero-crosses after `b`, in or after the hold of `b`: the level is as it was, the hold has counted them,
and the angle is that of the hold until the hold is over. -/
structure Block.HoldAfter (c : Config) (b : Block) (n : Nat) (b' : Block) : Prop where
  level : b'.level = b.level
  kickCnt : b'.kickCnt.toNat = b.kickCnt.toNat - n
  phaseAngle : b'.phaseAngle = if n < b.kickCnt.toNat then b.phaseAngle else lutAt c b.level

theorem Block.HoldAfter.zero {c : Config} {b : Block} (h : b.kickCnt ≠ 0) : b.HoldAfter c 0 b where
  level := rfl
  kickCnt := rfl
  phaseAngle := (if_pos (by bv_omega)).symm

theorem Block.HoldAfter.of_sameMapper {c : Config} {b b' b'' : Block} {n : Nat} (h : b.HoldAfter c n b')
    (hsame : b'.SameMapper b'') : b.HoldAfter c n b'' where
  level := hsame.level.trans h.level
  kickCnt := (congrArg BitVec.toNat hsame.kickCnt).trans h.kickCnt
  phaseAngle := hsame.phaseAngle.trans h.phaseAngle

/-- `ZC` is one more zero-cross of the hold; the angle changes at the one that finds the count at 1. -/
theorem zeroCross_holdAfter {c : Config} {b : Block} {n : Nat} {s : State} (h : b.HoldAfter c n s.block) :
    b.HoldAfter c (n + 1) (zeroCross c s).block where
  level := (zeroCross_level c s).trans h.level
  kickCnt := by rw [zeroCross_kickCnt_toNat, h.kickCnt, Nat.sub_sub]
  phaseAngle := by
    have hlast : s.block.kickCnt = 1 ↔ n + 1 = b.kickCnt.toNat := by
      have hcount := h.kickCnt
      constructor <;> intro hk <;> bv_omega
    rw [zeroCross_phaseAngle, h.level, h.phaseAngle]
    by_cases hend : n + 1 = b.kickCnt.toNat
    · rw [if_pos (hlast.2 hend), if_neg (by omega)]
    · have hsameSide : n + 1 < b.kickCnt.toNat ↔ n < b.kickCnt.toNat := by omega
      rw [if_neg (mt hlast.1 hend), if_congr hsameSide rfl rfl]

/-- An operation is a written level that starts the fan, or it neither raises `RUN` nor lengthens the hold: `RST` stops the
fan and `ZC` only counts the hold down (R179, R180). -/
theorem perform_start_cases (c : Config) (i : Instr) (s : State) :
    (∃ d, i = .wrLevel d ∧ s.block.run = false ∧ s.block.startReq = true ∧ (perform c i s).block.run = true
        ∧ (perform c i s).block.kickCnt = c.kickHalfcycles ∧ (perform c i s).block.phaseAngle = lutAt c c.fullIdx)
      ∨ (((perform c i s).block.run = true → s.block.run = true)
        ∧ (perform c i s).block.kickCnt.toNat ≤ s.block.kickCnt.toNat) := by
  obtain rfl | rfl | ⟨d, rfl⟩ | hsame := Instr.cases_mapper c s i
  · exact .inr ⟨nofun, Nat.zero_le _⟩
  · rw [perform_zc, zeroCross_run, zeroCross_kickCnt_toNat]
    exact .inr ⟨id, Nat.sub_le _ _⟩
  · rw [perform_wrLevel, State.mapBlock_block]
    exact (applyLevel_start_cases c d s.block).imp_left fun hstart => ⟨d, rfl, hstart⟩
  · rw [hsame.run, hsame.kickCnt]
    exact .inr ⟨id, le_rfl⟩

/-- A property that counts the occurrences of one operation, and that the others of a list keep, has counted them after
the list. -/
theorem runOps_count_induction (c : Config) {P : Nat → State → Prop} (i : Instr) (ops : List Instr)
    (counted : ∀ n t, P n t → P (n + 1) (perform c i t))
    (kept : ∀ j ∈ ops, j ≠ i → ∀ n t, P n t → P n (perform c j t))
    {n : Nat} {s : State} (h : P n s) : P (n + ops.count i) (runOps c ops s) := by
  induction ops generalizing n s with
  | nil => exact h
  | cons j ops ih =>
    have ih := @ih fun k hk => kept k (List.mem_cons_of_mem j hk)
    rw [runOps_cons]
    by_cases hj : j = i
    · subst hj
      rw [List.count_cons_self, ← Nat.add_assoc, Nat.add_right_comm]
      exact ih (counted n s h)
    · rw [List.count_cons_of_ne hj]
      exact ih (kept j List.mem_cons_self hj n s h)

/-! ### The obligations of `41_speed_mapper.md` -/

/-- Settles O18. -/
theorem machineTableDecreases : Obligations.MachineTableDecreases := by
  refine ⟨Config.machine_admissible, fun m n hmn => ?_⟩
  rw [lutAt_machine, lutAt_machine]
  exact Config.tableAngle_antitone hmn

/-- Settles O27: without `WR LEVEL` and `RST` only `ZC` reaches the hold, and each `ZC` is one step of it. -/
theorem kickStartCountsZeroCrosses : Obligations.KickStartCountsZeroCrosses := by
  intro c s ops hlevel hrst hkick
  have hrun : s.block.HoldAfter c (0 + ops.count .zc) (runOps c ops s).block := by
    refine runOps_count_induction c (P := fun n t => s.block.HoldAfter c n t.block) .zc ops
      (fun n t ht => zeroCross_holdAfter ht) (fun i hi hzc n t ht => ?_) (.zero hkick)
    obtain rfl | rfl | ⟨d, rfl⟩ | hsame := Instr.cases_mapper c t i
    · exact absurd hi hrst
    · exact absurd rfl hzc
    · exact absurd hi (hlevel d)
    · exact ht.of_sameMapper hsame
  rw [Nat.zero_add] at hrun
  exact ⟨hrun.kickCnt, hrun.phaseAngle⟩

/-- Settles O28. -/
theorem runBeginsWithKickStart : Obligations.RunBeginsWithKickStart := by
  intro i s
  refine ⟨_, exec_eq_perform i s, ?_⟩
  obtain ⟨d, hi, hstop, hreq, hrun, hkick, hangle⟩ | ⟨hrun, hkick⟩ := perform_start_cases Config.machine i s
  · exact ⟨fun _ _ => ⟨d, hi, hreq, hkick, hangle⟩, fun _ => ⟨hstop, hrun⟩⟩
  · exact ⟨fun hstop hstarted => absurd (hstop.symm.trans (hrun hstarted)) Bool.false_ne_true,
      fun hgrew => absurd hgrew hkick.not_gt⟩

/-- Settles O29. -/
theorem onlyMapperWritesAngle : Obligations.OnlyMapperWritesAngle := by
  intro c i s hchange
  obtain rfl | rfl | ⟨d, rfl⟩ | hsame := Instr.cases_mapper c s i
  · exact ⟨.inr (.inr rfl), 0, rfl⟩
  · rw [perform_zc, zeroCross_phaseAngle] at hchange ⊢
    have hlast : s.block.kickCnt = 1 := of_not_not fun hk => hchange (if_neg hk)
    exact ⟨.inr (.inl ⟨rfl, hlast⟩), s.block.level, if_pos hlast⟩
  · exact ⟨.inl ⟨d, rfl⟩, (applyLevel_phaseAngle c d s.block).resolve_left hchange⟩
  · exact absurd hsame.phaseAngle hchange

/-- Settles O25. -/
theorem writtenLevelIsClamped : Obligations.WrittenLevelIsClamped := by
  intro d s
  refine ⟨_, exec_wrLevel d s, ?_⟩
  rw [State.mapBlock_block, applyLevel_level, clampLevel_machine_val]

/-- Settles O26: each case of the mapper decides the conditions of the statement. -/
theorem writeLevelResult : Obligations.WriteLevelResult := by
  intro d s n hn
  obtain rfl : n = clampLevel Config.machine d := Fin.ext (hn.trans (clampLevel_machine_val d).symm)
  rw [exec_wrLevel, State.mapBlock]
  obtain ⟨hn, h⟩ | ⟨hn, hrun, hreq, h⟩ | ⟨hn, hrun, hreq, h⟩ | ⟨hn, hrun, hk, h⟩ | ⟨hn, hrun, hk, h⟩ :=
    applyLevel_cases Config.machine d s.block <;> rw [h]
  · rw [if_pos hn, hn]
  · rw [if_neg hn, if_pos ⟨hrun, hreq⟩]
    rfl
  · rw [if_neg hn, if_neg (by simp [hreq]), if_pos hrun]
  · rw [if_neg hn, if_neg (by simp [hrun]), if_neg (by simp [hrun]), if_pos hk]
  · rw [if_neg hn, if_neg (by simp [hrun]), if_neg (by simp [hrun]), if_neg (not_not.2 hk)]

end Sys2Proof.Machine

/-! ## The timebase (`42_timebase.md` R191 to R198)

A tick either counts or wraps, so `n` ticks leave only a count and the effect of the `k` overflow ticks among them. -/

namespace Sys2Proof.Machine

/-! ### One tick of the machine (R191) -/

/-- The machine's saturating count (R194): an overflow tick takes 0 to 1 and every other value to 2. -/
theorem saturatedIdle_machine (b : Block) : saturatedIdle Config.machine b = if b.irIdle = 0 then 1 else 2 := by
  rw [saturatedIdle, Config.machine_irIdleTicks]
  split
  case isTrue hzero => rw [hzero]; rfl
  case isFalse hpos =>
    have : 1 ≤ b.irIdle.toNat := by bv_omega
    exact min_eq_right (by simpa using this)

/-- Settles O30: the machine's count wraps exactly at `0xFFFF`. -/
theorem timebaseTickResult : Obligations.TimebaseTickResult := by
  intro s
  rw [exec_eq_perform, perform_tb, State.mapBlock]
  constructor
  · intro hbelow
    have hcount : Config.machine.tick (s.block.tbCnt + 1) ≠ 0 := by
      rw [Config.machine_tick]
      bv_omega
    rw [timebaseTick_count _ _ hcount, Config.machine_tick]
  · intro hmax
    have hwrap : Config.machine.tick (s.block.tbCnt + 1) = 0 := by
      rw [Config.machine_tick, hmax]
      rfl
    rw [timebaseTick_wrap _ _ hwrap, saturatedIdle_machine]
    by_cases hidle : s.block.irIdle = 0
    · simp [hidle]
    · simp only [if_neg hidle]
      simp

/-! ### Many overflow ticks (R193, R194) -/

section Overflows

variable (c : Config) (b : Block) (t : Ticks) (k : Nat)

/-- The block with `k` overflow ticks behind it and the timebase at `t`. -/
def Block.afterOverflows : Block :=
  { b with
    tbCnt := t
    ovfCnt := BitVec.ofNat 8 (b.ovfCnt.toNat + k)
    irIdle := if k = 0 then b.irIdle else BitVec.ofNat 2 (min (b.irIdle.toNat + k) c.irIdleTicks.toNat)
    flags :=
      { b.flags with
        ovfF := b.flags.ovfF || decide (0 < k)
        rptPend := b.flags.rptPend && !decide (0 < k ∧ c.irIdleTicks.toNat ≤ b.irIdle.toNat + k) } }

theorem Block.afterOverflows_zero : b.afterOverflows c b.tbCnt 0 = b := by simp [Block.afterOverflows]

theorem Block.afterOverflows_irIdle_toNat :
    (b.afterOverflows c t k).irIdle.toNat =
      if k = 0 then b.irIdle.toNat else min (b.irIdle.toNat + k) c.irIdleTicks.toNat := by
  have hfits : min (b.irIdle.toNat + k) c.irIdleTicks.toNat < 2 ^ 2 := (Nat.min_le_right _ _).trans_lt c.irIdleTicks.isLt
  simp only [Block.afterOverflows, apply_ite BitVec.toNat, BitVec.toNat_ofNat, Nat.mod_eq_of_lt hfits]

/-- The saturation of one overflow tick after another is one saturation of their number. -/
theorem saturatedIdle_afterOverflows :
    saturatedIdle c (b.afterOverflows c t k) = min (b.irIdle.toNat + (k + 1)) c.irIdleTicks.toNat := by
  rw [saturatedIdle, Block.afterOverflows_irIdle_toNat]
  split <;> omega

/-- A tick that does not wrap moves the count only. -/
theorem timebaseTick_afterOverflows_count (h : c.tick (t + 1) ≠ 0) :
    timebaseTick c (b.afterOverflows c t k) = b.afterOverflows c (c.tick (t + 1)) k :=
  timebaseTick_count c _ h

/-- A tick that wraps is one more overflow tick. A repeat that an earlier one dropped stays dropped, since the number of
overflow ticks only grows. -/
theorem timebaseTick_afterOverflows_wrap (h : c.tick (t + 1) = 0) :
    timebaseTick c (b.afterOverflows c t k) = b.afterOverflows c 0 (k + 1) := by
  have hovf : BitVec.ofNat 8 (b.ovfCnt.toNat + k) + 1 = BitVec.ofNat 8 (b.ovfCnt.toNat + (k + 1)) := by
    rw [← Nat.add_assoc, BitVec.ofNat_add (b.ovfCnt.toNat + k) 1]
    rfl
  have hdrop : (b.flags.rptPend && !decide (0 < k ∧ c.irIdleTicks.toNat ≤ b.irIdle.toNat + k)
        && !decide (c.irIdleTicks.toNat ≤ min (b.irIdle.toNat + (k + 1)) c.irIdleTicks.toNat))
      = (b.flags.rptPend && !decide (0 < k + 1 ∧ c.irIdleTicks.toNat ≤ b.irIdle.toNat + (k + 1))) := by
    rw [Bool.and_assoc, ← Bool.not_or, ← Bool.decide_or]
    exact congrArg (fun v => b.flags.rptPend && !v) (decide_eq_decide.mpr (by omega))
  rw [timebaseTick_wrap c _ h, saturatedIdle_afterOverflows]
  simp only [Block.afterOverflows, hovf, hdrop, Nat.succ_ne_zero, if_false, Nat.succ_pos, decide_true, Bool.or_true]

end Overflows

/-! ### Many ticks (R198) -/

section Ticks

variable {c : Config} {m : Nat}

theorem Config.tbWidth_le (h : c.admissible = true) : c.tbWidth ≤ 16 := by
  simp only [Config.admissible, Bool.and_eq_true, decide_eq_true_eq] at h
  tauto

/-- The count of a timebase of at most 16 bits follows the number of the ticks modulo `2^TB_WIDTH`. -/
theorem Config.tick_ofNat_mod (hw : c.tbWidth ≤ 16) :
    c.tick (BitVec.ofNat 16 (m % 2 ^ c.tbWidth) + 1) = BitVec.ofNat 16 ((m + 1) % 2 ^ c.tbWidth) := by
  have hdvd : 2 ^ c.tbWidth ∣ 2 ^ 16 := Nat.pow_dvd_pow 2 hw
  rw [Config.tick, BitVec.toNat_add, Nat.mod_mod_of_dvd _ hdvd, BitVec.toNat_ofNat, ← Nat.mod_add_mod,
    Nat.mod_mod_of_dvd _ hdvd, Nat.mod_mod, Nat.mod_add_mod]
  rfl

/-- The count wraps where the number of the ticks reaches a multiple of `2^TB_WIDTH`. -/
theorem Config.tick_ofNat_mod_eq_zero (hw : c.tbWidth ≤ 16) :
    c.tick (BitVec.ofNat 16 (m % 2 ^ c.tbWidth) + 1) = 0 ↔ 2 ^ c.tbWidth ∣ m + 1 := by
  have hfits : (m + 1) % 2 ^ c.tbWidth < 2 ^ 16 :=
    (Nat.mod_lt _ (Nat.two_pow_pos _)).trans_le (Nat.pow_le_pow_right two_pos hw)
  rw [Config.tick_ofNat_mod hw, ← BitVec.toNat_inj, BitVec.toNat_ofNat, Nat.mod_eq_of_lt hfits, Nat.dvd_iff_mod_eq_zero]
  rfl

/-- One tick more, from a count that stands for `m` ticks in all. -/
theorem timebaseTick_afterOverflows (hw : c.tbWidth ≤ 16) (b : Block) :
    timebaseTick c (b.afterOverflows c (BitVec.ofNat 16 (m % 2 ^ c.tbWidth)) (m / 2 ^ c.tbWidth)) =
      b.afterOverflows c (BitVec.ofNat 16 ((m + 1) % 2 ^ c.tbWidth)) ((m + 1) / 2 ^ c.tbWidth) := by
  by_cases hdvd : 2 ^ c.tbWidth ∣ m + 1
  · rw [timebaseTick_afterOverflows_wrap c b _ _ ((Config.tick_ofNat_mod_eq_zero hw).2 hdvd), Nat.succ_div_of_dvd hdvd,
      Nat.mod_eq_zero_of_dvd hdvd]
    rfl
  · rw [timebaseTick_afterOverflows_count c b _ _ (mt (Config.tick_ofNat_mod_eq_zero hw).1 hdvd),
      Nat.succ_div_of_not_dvd hdvd, Config.tick_ofNat_mod hw]

theorem tbN_succ (n : Nat) : tbN (n + 1) = tbN n ++ [.tb] := List.replicate_succ'

/-- The invariant of `TBN n` (R198): after `n` ticks the count and the overflow ticks stand for `TB_CNT + n`. -/
theorem runOps_tbN (hw : c.tbWidth ≤ 16) (s : State) (hcnt : s.block.tbCnt.toNat < 2 ^ c.tbWidth) (n : Nat) :
    runOps c (tbN n) s =
      s.mapBlock fun b =>
        b.afterOverflows c (BitVec.ofNat 16 ((b.tbCnt.toNat + n) % 2 ^ c.tbWidth)) ((b.tbCnt.toNat + n) / 2 ^ c.tbWidth) := by
  induction n with
  | zero =>
    have hb : s.block.afterOverflows c (BitVec.ofNat 16 (s.block.tbCnt.toNat % 2 ^ c.tbWidth))
        (s.block.tbCnt.toNat / 2 ^ c.tbWidth) = s.block := by
      rw [Nat.mod_eq_of_lt hcnt, Nat.div_eq_of_lt hcnt, BitVec.ofNat_toNat, BitVec.setWidth_eq, Block.afterOverflows_zero]
    exact State.ext hb.symm rfl rfl rfl
  | succ n ih =>
    rw [tbN_succ, runOps_append, ih]
    exact State.ext (timebaseTick_afterOverflows hw s.block) rfl rfl rfl

end Ticks

/-! ### The obligations of `42_timebase.md` about many ticks -/

/-- Settles O31. -/
theorem manyTimebaseTicks : Obligations.ManyTimebaseTicks := by
  rintro c s n k hc hcnt rfl
  exact runOps_tbN (Config.tbWidth_le hc) s hcnt n

/-- Settles O32: from any count, 65536 ticks hold at most one overflow tick and 131072 ticks at least two. -/
theorem pendingRepeatLifetime : Obligations.PendingRepeatLifetime := by
  intro s n hidle hpend
  have hcnt := s.block.tbCnt.isLt
  have hrun : (runOps Config.machine (tbN n) s).block.flags.rptPend =
      !decide (2 ≤ (s.block.tbCnt.toNat + n) / 65536) := by
    have hfresh : s.block.irIdle.toNat = 0 := congrArg BitVec.toNat hidle
    have hlimit : Config.machine.irIdleTicks.toNat = 2 := rfl
    rw [runOps_tbN (c := Config.machine) le_rfl s hcnt n]
    simp only [State.mapBlock_block, Block.afterOverflows, hpend, hfresh, hlimit, Bool.true_and]
    refine congrArg (!·) (decide_eq_decide.mpr ?_)
    rw [Config.machine_tbWidth]
    omega
  rw [hrun, Bool.not_eq_true', Bool.not_eq_false', decide_eq_true_eq, decide_eq_false_iff_not]
  exact ⟨fun hfew => by omega, fun hmany => by omega⟩

end Sys2Proof.Machine

/-! ## The infrared decoder (`43_ir_decoder.md` R206 to R229)

Behind its prologue an edge works on six elements of the decoder only: besides the interval and the level, the rule of
its state and its epilogue read and write nothing else. What an edge keeps, and on what it depends, follows from that. -/

namespace Sys2Proof.Machine

/-! ### The elements that an edge works on -/

section Working

variable (c : Config) (b : Block) (e : Edge) (lvl : Bool)

/-- The block `b` with the elements that the rules R208 to R217 work on taken from `d`. -/
def Block.workingAs (b d : Block) : Block :=
  { b with
    irState := d.irState
    acc := d.acc
    bitCnt := d.bitCnt
    frame := d.frame
    flags := { b.flags with frameRdy := d.flags.frameRdy, rptPend := d.flags.rptPend } }

/-- The edge with everything that the rules do not work on taken from `b`. -/
def Edge.on (b : Block) (e : Edge) : Edge := { e with block := b.workingAs e.block }

@[simp] theorem Edge.on_lvl : (e.on b).lvl = e.lvl := rfl
@[simp] theorem Edge.on_iv : (e.on b).iv = e.iv := rfl
@[simp] theorem Edge.on_err : (e.on b).err = e.err := rfl
@[simp] theorem Edge.on_block : (e.on b).block = b.workingAs e.block := rfl
@[simp] theorem Block.workingAs_irState (d : Block) : (b.workingAs d).irState = d.irState := rfl
@[simp] theorem Block.workingAs_bitCnt (d : Block) : (b.workingAs d).bitCnt = d.bitCnt := rfl

@[simp] theorem Edge.require_on (ok : Bool) (cause : SoftError) :
    (e.on b).require ok cause = (e.require ok cause).on b := by
  cases ok <;> rfl

/-- The rule of the state works on the working elements (R208 to R214). -/
theorem stateRule_on : stateRule c (e.on b) = (stateRule c e).on b := by
  simp only [stateRule, Edge.on_block, Block.workingAs_irState]
  cases e.block.irState with
  | idle =>
    cases hl : e.lvl <;> simp only [ruleIdle, Edge.on_lvl, hl] <;> rfl
  | mark =>
    simp only [ruleMark, Edge.on_iv, Edge.require_on]
    rfl
  | space => rfl
  | highBit =>
    simp only [ruleHighBit, Edge.on_iv, Edge.require_on]
    rfl
  | lowBit =>
    simp only [ruleLowBit, Edge.on_iv, Edge.require_on]
    rfl
  | repeatFrame =>
    cases hw : within c.bitMin c.bitMax e.iv <;> simp only [ruleRepeat, Edge.on_iv, hw] <;> rfl

/-- So does the epilogue (R215 to R217). -/
theorem edgeEpilogue_on : edgeEpilogue c (e.on b) = b.workingAs (edgeEpilogue c e) := by
  cases herr : e.err.isSome with
  | true => simp only [edgeEpilogue, Edge.on_err, herr]; rfl
  | false =>
    by_cases hbits : e.block.bitCnt.toNat = c.frameBits <;>
      simp only [edgeEpilogue, Edge.on_err, herr, Edge.on_block, Block.workingAs_bitCnt, hbits] <;> rfl

/-- Two edges with the same interval on the same working elements do the same to these; all else is as the prologue
leaves it. -/
theorem irEdge_of_working_eq {b b' : Block} (hiv : interval c b' = interval c b) (hb : b'.workingAs b = b') :
    irEdge c lvl b' = (edgePrologue c lvl b').block.workingAs (irEdge c lvl b) := by
  have hpro : edgePrologue c lvl b' = (edgePrologue c lvl b).on (edgePrologue c lvl b').block := by
    unfold edgePrologue
    rw [hiv, ← hb]
    rfl
  unfold irEdge
  rw [hpro, stateRule_on, edgeEpilogue_on]
  rfl

/-- An edge leaves all but the working elements as the prologue does (R207). -/
theorem irEdge_eq_workingAs :
    irEdge c lvl b = (edgePrologue c lvl b).block.workingAs (irEdge c lvl b) :=
  irEdge_of_working_eq c lvl rfl rfl

theorem irEdge_irLevel : (irEdge c lvl b).irLevel = lvl := by rw [irEdge_eq_workingAs]; rfl

theorem irEdge_irLast : (irEdge c lvl b).irLast = b.tbCnt := by rw [irEdge_eq_workingAs]; rfl

end Working

/-- Settles O41: the translation leaves the interval and the working elements as they are. -/
theorem edgeSeesOnlyTheInterval : Obligations.EdgeSeesOnlyTheInterval := by
  intro c lvl b k
  have hiv : interval c { b with tbCnt := b.tbCnt + k, irLast := b.irLast + k } = interval c b :=
    congrArg c.tick (by dsimp only; bv_omega)
  rw [irEdge_of_working_eq c lvl hiv rfl, irEdge_eq_workingAs c b lvl]
  rfl

end Sys2Proof.Machine

/-! ### An edge of the machine, state by state (R208 to R217) -/

namespace Sys2Proof.Machine

theorem interval_machine (b : Block) : interval Config.machine b = b.tbCnt - b.irLast := Config.machine_tick _

/-- The shift of the machine, to the right, with the bit at place 31 (R213). -/
theorem shiftIn_right (acc : FrameWord) (p : Prop) [Decidable p] :
    shiftIn .right acc (decide p) = (if p then 0x80000000 else 0) ||| acc >>> 1 := by
  by_cases hp : p
  · rw [if_pos hp, decide_eq_true hp]
    rfl
  · rw [if_neg hp, decide_eq_false hp]
    rfl

/-- A bit count within a frame of the machine. -/
theorem Block.bitCnt_lt_machine {b : Block} (h : b.bitCnt.toNat ≤ 31) : b.bitCnt.toNat < Config.machine.frameBits :=
  Nat.lt_succ_of_le h

/-- Settles O33. -/
theorem edgeInIdle : Obligations.EdgeInIdle := by
  intro s hst
  refine ⟨?_, fun hbits => ?_⟩
  · refine (exec_edgeOp true s).trans ?_
    rw [State.mapBlock, irEdge_idle_active _ _ hst (by decide)]
  · refine (exec_edgeOp false s).trans ?_
    rw [State.mapBlock, irEdge_idle_inactive _ _ hst (Block.bitCnt_lt_machine hbits)]

/-- Settles O34. -/
theorem edgeInMark : Obligations.EdgeInMark := by
  rintro lvl s iv hst hbits rfl
  rw [exec_edgeOp, State.mapBlock, irEdge_mark _ _ _ hst (Block.bitCnt_lt_machine hbits), interval_machine,
    Config.machine_markMin]
  by_cases hshort : (s.block.tbCnt - s.block.irLast).toNat < 787
  · rw [if_neg hshort.not_ge, if_pos hshort, if_pos hshort]
  · rw [if_pos (not_lt.1 hshort), if_neg hshort, if_neg hshort]

/-- Settles O35. -/
theorem edgeInSpace : Obligations.EdgeInSpace := by
  rintro lvl s iv hst hbits rfl
  rw [exec_edgeOp, State.mapBlock, irEdge_space _ _ _ hst (Block.bitCnt_lt_machine hbits), interval_machine,
    Config.machine_spaceRpt]

/-- Settles O36. -/
theorem edgeInHighBit : Obligations.EdgeInHighBit := by
  rintro lvl s iv hst hbits rfl
  rw [exec_edgeOp, State.mapBlock, irEdge_highBit _ _ _ hst (Block.bitCnt_lt_machine hbits), interval_machine]
  simp only [within_iff, Config.machine_bitMin, Config.machine_bitMax]
  by_cases hin : 56 ≤ (s.block.tbCnt - s.block.irLast).toNat ∧ (s.block.tbCnt - s.block.irLast).toNat ≤ 84
  · simp only [if_pos hin]
  · simp only [if_neg hin]

/-- Settles O37: the 32nd bit is the one that finds 31 counted. -/
theorem edgeInLowBit : Obligations.EdgeInLowBit := by
  rintro lvl s iv acc' hst hbits rfl rfl
  have hout : within Config.machine.lowMin Config.machine.lowMax (s.block.tbCnt - s.block.irLast) = false ↔
      (s.block.tbCnt - s.block.irLast).toNat < 56 ∨ 252 < (s.block.tbCnt - s.block.irLast).toNat := by
    rw [← Bool.not_eq_true, within_iff, Config.machine_lowMin, Config.machine_lowMax]
    omega
  have hlast : (s.block.bitCnt + 1).toNat = Config.machine.frameBits ↔ s.block.bitCnt = 31 := by
    rw [Config.machine_frameBits]
    constructor <;> intro h <;> bv_omega
  have hacc : shiftIn Config.machine.accDir s.block.acc (decodedBit Config.machine (s.block.tbCnt - s.block.irLast)) =
      (if 168 ≤ (s.block.tbCnt - s.block.irLast).toNat then 0x80000000 else 0) ||| s.block.acc >>> 1 :=
    shiftIn_right _ _
  rw [exec_edgeOp, State.mapBlock, irEdge_lowBit _ _ _ hst, interval_machine, hacc]
  simp only [hout, hlast]

/-- Settles O38. -/
theorem edgeInRepeat : Obligations.EdgeInRepeat := by
  rintro lvl s iv hst hbits rfl
  rw [exec_edgeOp, State.mapBlock, irEdge_repeatFrame _ _ _ hst (Block.bitCnt_lt_machine hbits), interval_machine]
  simp only [within_iff, Config.machine_bitMin, Config.machine_bitMax]

end Sys2Proof.Machine

/-! ### The level of `ir` (R206, R218) -/

namespace Sys2Proof.Machine

section IrLevel

variable {c : Config} {b : Block} {lvl : Bool}

theorem Block.LevelInv.of_idle (h : b.irState = .idle) : b.LevelInv := by
  simp [Block.LevelInv, h]

/-- The rule of a state that goes with one level leads to Idle or to a state that goes with the other (R208 to R214). -/
theorem stateRule_levelInv (h : b.LevelInv) (hedge : b.irLevel = !lvl) :
    (stateRule c (edgePrologue c lvl b)).block.LevelInv := by
  obtain ⟨hactive, hpause⟩ := h
  simp only [hedge, Bool.not_eq_true', Bool.not_eq_false'] at hactive hpause
  cases hst : b.irState with
  | idle => cases lvl <;> simp [stateRule, hst, ruleIdle, Block.LevelInv]
  | mark => simp [stateRule, hst, ruleMark, Block.LevelInv, hactive (.inl hst)]
  | space =>
    simp only [stateRule, edgePrologue_block, hst, ruleSpace, Edge.goto_block, Block.LevelInv, hpause (.inl hst)]
    split <;> simp
  | highBit => simp [stateRule, hst, ruleHighBit, Block.LevelInv, hactive (.inr (.inl hst))]
  | lowBit => simp [stateRule, hst, ruleLowBit, takeBit, Block.LevelInv, hpause (.inr hst)]
  | repeatFrame => exact .of_idle (by simp [stateRule, hst, ruleRepeat])

/-- A soft error and a completed frame both lead to Idle (R215, R217). -/
theorem edgeEpilogue_levelInv {e : Edge} (h : e.block.LevelInv) : (edgeEpilogue c e).LevelInv := by
  unfold edgeEpilogue
  split_ifs
  · exact .of_idle rfl
  · exact .of_idle rfl
  · exact h

end IrLevel

theorem State.admits_edgeOp (s : State) (lvl : Bool) : s.admits (edgeOp lvl) = (s.block.irLevel == !lvl) := by
  cases lvl <;> simp [State.admits, edgeOp]

/-- An operation other than `RST` and the edges of `ir`. -/
def Instr.NoEdge (i : Instr) : Prop := i ≠ .rst ∧ ∀ lvl, i ≠ edgeOp lvl

theorem Instr.cases_edge (i : Instr) : i = .rst ∨ (∃ lvl, i = edgeOp lvl) ∨ Instr.NoEdge i := by
  by_cases hrst : i = .rst
  · exact .inl hrst
  · by_cases hedge : ∃ lvl, i = edgeOp lvl
    · exact .inr (.inl hedge)
    · exact .inr (.inr ⟨hrst, not_exists.1 hedge⟩)

section NoEdge

variable {i : Instr} (hi : Instr.NoEdge i)
include hi

theorem State.admits_of_noEdge (s : State) : s.admits i = true := by
  obtain ⟨-, hedge⟩ := hi
  cases i with
  | ira => exact absurd rfl (hedge true)
  | iri => exact absurd rfl (hedge false)
  | _ => rfl

theorem edgesAlternate_of_noEdge (lvl : Bool) (ops : List Instr) :
    edgesAlternate lvl (i :: ops) = edgesAlternate lvl ops := by
  obtain ⟨hrst, hedge⟩ := hi
  cases i with
  | rst => exact absurd rfl hrst
  | ira => exact absurd rfl (hedge true)
  | iri => exact absurd rfl (hedge false)
  | _ => rfl

/-- No other operation reaches the level of `ir` or the state of the decoder. -/
theorem perform_of_noEdge (c : Config) (s : State) :
    (perform c i s).block.irLevel = s.block.irLevel ∧ (perform c i s).block.irState = s.block.irState := by
  obtain ⟨hrst, hedge⟩ := hi
  have hhalf {b b' : Block} (h : b'.decoderHalf = b.decoderHalf) : b'.irLevel = b.irLevel ∧ b'.irState = b.irState :=
    ⟨congrArg DecoderHalf.irLevel h, congrArg DecoderHalf.irState h⟩
  obtain rfl | rfl | rfl | rfl | ⟨lvl, rfl⟩ | ⟨r, rfl⟩ | ⟨r, d, rfl⟩ := Instr.cases_access i
  · exact absurd rfl hrst
  · exact hhalf (zeroCross_decoderHalf c s)
  · exact hhalf (delayTick_decoderHalf s)
  · rw [perform_tb, State.mapBlock_block]
    by_cases hwrap : c.tick (s.block.tbCnt + 1) = 0
    · rw [timebaseTick_wrap c _ hwrap]
      exact ⟨rfl, rfl⟩
    · rw [timebaseTick_count c _ hwrap]
      exact ⟨rfl, rfl⟩
  · exact absurd rfl (hedge lvl)
  · rw [perform_readOp]
    exact ⟨rfl, rfl⟩
  · rw [perform_writeOp, State.mapBlock_block]
    obtain h | h | h | h := memWrite_cases c r.addr d s.block <;> rw [h]
    · exact ⟨rfl, rfl⟩
    · exact hhalf (applyLevel_decoderHalf c s.block d)
    · exact ⟨rfl, rfl⟩
    · exact ⟨rfl, rfl⟩

end NoEdge

/-- Settles O16: of all operations only `RST` and the edges reach the decoder state or the level. -/
theorem alternatingEdgesKeepLevel : Obligations.AlternatingEdgesKeepLevel := by
  intro c i s hs hadmits
  obtain rfl | ⟨lvl, rfl⟩ | hi := Instr.cases_edge i
  · exact Block.reset_levelInv c
  · rw [State.admits_edgeOp, beq_iff_eq] at hadmits
    rw [perform_edgeOp]
    exact edgeEpilogue_levelInv (stateRule_levelInv hs hadmits)
  · obtain ⟨hlevel, hstate⟩ := perform_of_noEdge hi c s
    rwa [Block.LevelInv, hlevel, hstate]

/-- Alternation of the edges, from the level of `ir` in a state: the first operation is admitted, and the others
alternate from the level that it leaves. -/
theorem edgesAlternate_perform (c : Config) (s : State) (i : Instr) (ops : List Instr) :
    edgesAlternate s.block.irLevel (i :: ops) =
      (s.admits i && edgesAlternate (perform c i s).block.irLevel ops) := by
  obtain rfl | ⟨lvl, rfl⟩ | hi := Instr.cases_edge i
  · rfl
  · rw [perform_edgeOp, State.mapBlock_block, irEdge_irLevel]
    cases lvl <;> rfl
  · rw [edgesAlternate_of_noEdge hi, State.admits_of_noEdge hi, Bool.true_and, (perform_of_noEdge hi c s).left]

/-- Where the edges of a list alternate from the level of `ir` on, every operation of the list is admitted. -/
theorem admits_of_edgesAlternate (c : Config) {ops : List Instr} {i : Instr} {todo : List Instr} {s : State}
    (h : edgesAlternate s.block.irLevel (ops ++ i :: todo) = true) : (runOps c ops s).admits i = true := by
  induction ops generalizing s with
  | nil =>
    rw [List.nil_append, edgesAlternate_perform c, Bool.and_eq_true] at h
    exact h.left
  | cons j ops ih =>
    rw [List.cons_append, edgesAlternate_perform c, Bool.and_eq_true] at h
    exact ih h.right

/-- Settles O17: the level of `ir` after reset is 0, from which a run alternates. -/
theorem admittedInRunFromReset : Obligations.AdmittedInRunFromReset :=
  fun c _ _ _ h => admits_of_edgesAlternate c h

end Sys2Proof.Machine

/-! ### The two halves of the block (R229)

A block is the pair of its halves. Where an operation reads one half only, its effect on that half is the same for any
other half in the pair. -/

namespace Sys2Proof.Machine

/-- The block with the given halves. -/
def Block.ofHalves (f : FiringHalf) (d : DecoderHalf) : Block :=
  { irState := d.irState, phaseAngle := f.phaseAngle, dlyCnt := f.dlyCnt, dlyArmed := f.dlyArmed, gate := f.gate,
    run := f.run, level := f.level, startReq := f.startReq, kickCnt := f.kickCnt, tbCnt := d.tbCnt, hcCnt := f.hcCnt,
    ovfCnt := d.ovfCnt, irLevel := d.irLevel, irLast := d.irLast, acc := d.acc, bitCnt := d.bitCnt, frame := d.frame,
    irIdle := d.irIdle,
    flags := { frameRdy := d.frameRdy, rptPend := d.rptPend, ovfF := d.ovfF, zcF := f.zcF } }

/-- The firing engine's half of `f` beside the decoder's half of `d`. -/
def Block.join (f d : Block) : Block := .ofHalves f.firingHalf d.decoderHalf

/-- What does the same to the decoder's half beside any other half does the same to equal decoder's halves. -/
theorem Block.decoderHalf_congr {op : Block → Block} {b b' : Block} (h : b.decoderHalf = b'.decoderHalf)
    (hop : ∀ f d, (op (Block.join f d)).decoderHalf = (op d).decoderHalf) :
    (op b).decoderHalf = (op b').decoderHalf := by
  have hb : b = b.join b' := congrArg (Block.ofHalves b.firingHalf) h
  rw [hb]
  exact hop b b'

/-- The firing engine's half, with the gate trace. -/
def State.firingView (s : State) : FiringHalf × List Bool := (s.block.firingHalf, s.gateTrace)

/-- The firing engine's half and the gate trace of `s`, with all else as in `t`. -/
def State.join (s t : State) : State := { t with block := s.block.join t.block, gateTrace := s.gateTrace }

/-- What does the same to the firing engine's half and the gate trace beside anything else does the same to equal
ones. -/
theorem State.firingView_congr {op : State → State} {s s' : State} (h : s.firingView = s'.firingView)
    (hop : ∀ f d, (op (State.join f d)).firingView = (op f).firingView) : (op s).firingView = (op s').firingView := by
  obtain ⟨hhalf, htrace⟩ := Prod.mk.inj h
  have hs : s = s'.join s := State.ext (congrArg (Block.ofHalves · s.block.decoderHalf) hhalf) htrace rfl rfl
  rw [hs]
  exact hop s' s

section Halves

variable (c : Config) (f d : Block)

/-- The timebase reads of the block no more than the decoder's half. -/
theorem timebaseTick_join : (timebaseTick c (f.join d)).decoderHalf = (timebaseTick c d).decoderHalf := by
  by_cases hwrap : c.tick (d.tbCnt + 1) = 0
  · rw [timebaseTick_wrap c d hwrap, timebaseTick_wrap c (f.join d) hwrap]
    rfl
  · rw [timebaseTick_count c d hwrap, timebaseTick_count c (f.join d) hwrap]
    rfl

/-- The interval and the working elements of an edge are in the decoder's half. -/
theorem irEdge_join (lvl : Bool) : (irEdge c lvl (f.join d)).decoderHalf = (irEdge c lvl d).decoderHalf := by
  rw [irEdge_of_working_eq c lvl (b := d) (b' := f.join d) rfl rfl, irEdge_eq_workingAs c d lvl]
  rfl

/-- The writes of the host reach of the decoder's half only its flags, each of them by itself
(`44_host_access.md` R261). -/
theorem memWrite_join_decoderHalf (r : Reg) (v : Byte) :
    (memWrite c r.addr v (f.join d)).decoderHalf = (memWrite c r.addr v d).decoderHalf := by
  cases r with
  | level => exact (applyLevel_decoderHalf c _ v).trans (applyLevel_decoderHalf c d v).symm
  | _ => rfl

/-- The mapper reads of the block no more than the firing engine's half (`41_speed_mapper.md` R173). -/
theorem applyLevel_join (v : Byte) : (applyLevel c v (f.join d)).firingHalf = (applyLevel c v f).firingHalf := by
  simp only [applyLevel, apply_ite Block.firingHalf]
  rfl

theorem memWrite_join_firingHalf (r : Reg) (v : Byte) :
    (memWrite c r.addr v (f.join d)).firingHalf = (memWrite c r.addr v f).firingHalf := by
  cases r with
  | level => exact applyLevel_join c f d v
  | _ => rfl

/-- `ZC` reads of the state no more than the firing engine's half. -/
theorem zeroCross_join (s t : State) : (zeroCross c (s.join t)).firingView = (zeroCross c s).firingView := by
  rw [zeroCross_eq, zeroCross_eq]
  rfl

/-- `DT` likewise. -/
theorem delayTick_join (s t : State) : (delayTick (s.join t)).firingView = (delayTick s).firingView := by
  obtain ⟨harmed, h⟩ | ⟨harmed, hz, h⟩ | ⟨harmed, hz, h⟩ := delayTick_cases s <;> rw [h]
  · rw [delayTick_idle (s.join t) harmed]
    rfl
  · rw [delayTick_count (s.join t) harmed hz]
    rfl
  · rw [delayTick_expiry (s.join t) harmed hz, expiry_eq, expiry_eq]
    rfl

end Halves

/-- Settles O45: the operations of the firing engine leave the decoder's half, the others read no more than that half. -/
theorem decoderIgnoresFiringHalf : Obligations.DecoderIgnoresFiringHalf := by
  intro c i s s' h
  obtain rfl | rfl | rfl | rfl | ⟨lvl, rfl⟩ | ⟨r, rfl⟩ | ⟨r, v, rfl⟩ := Instr.cases_access i
  · rfl
  · rw [perform_zc, perform_zc, zeroCross_decoderHalf, zeroCross_decoderHalf, h]
  · rw [perform_dt, perform_dt, delayTick_decoderHalf, delayTick_decoderHalf, h]
  · exact Block.decoderHalf_congr h (timebaseTick_join c)
  · rw [perform_edgeOp, perform_edgeOp]
    exact Block.decoderHalf_congr h fun f d => irEdge_join c f d lvl
  · rw [perform_readOp, perform_readOp]
    exact h
  · rw [perform_writeOp, perform_writeOp]
    exact Block.decoderHalf_congr h fun f d => memWrite_join_decoderHalf c f d r v

theorem perform_firingView_congr (c : Config) (i : Instr) {s s' : State} (h : s.firingView = s'.firingView) :
    (perform c i s).firingView = (perform c i s').firingView := by
  obtain rfl | rfl | rfl | rfl | ⟨lvl, rfl⟩ | ⟨r, rfl⟩ | ⟨r, v, rfl⟩ := Instr.cases_access i
  · exact State.firingView_congr h fun _ _ => rfl
  · exact State.firingView_congr h (zeroCross_join c)
  · exact State.firingView_congr h delayTick_join
  · have hkept (t : State) : (perform c .tb t).firingView = t.firingView :=
      Prod.ext (timebaseTick_firingHalf c t.block) rfl
    rw [hkept, hkept, h]
  · have hkept (t : State) : (perform c (edgeOp lvl) t).firingView = t.firingView := by
      rw [perform_edgeOp]
      exact Prod.ext (irEdge_firingHalf c lvl t.block) rfl
    rw [hkept, hkept, h]
  · rw [perform_readOp, perform_readOp]
    exact h
  · rw [perform_writeOp, perform_writeOp]
    exact State.firingView_congr (op := State.mapBlock (memWrite c r.addr v)) h fun s t =>
      Prod.ext (memWrite_join_firingHalf c s.block t.block r v) rfl

/-- Settles O46. -/
theorem firingIgnoresDecoderHalf : Obligations.FiringIgnoresDecoderHalf :=
  fun c i _ _ h htrace => Prod.mk.inj (perform_firingView_congr c i (Prod.ext h htrace))

theorem delayTick_readTrace (s : State) : (delayTick s).readTrace = s.readTrace := by
  obtain ⟨-, h⟩ | ⟨-, -, h⟩ | ⟨-, -, h⟩ := delayTick_cases s <;> rw [h]
  exact (expiry_other s).left

/-- Settles O47. -/
theorem halvesWriteApart : Obligations.HalvesWriteApart := by
  intro s v
  constructor
  · intro i hi
    refine ⟨_, exec_eq_perform i s, ?_⟩
    simp only [List.mem_cons, List.not_mem_nil, or_false] at hi
    obtain rfl | rfl | rfl | rfl := hi
    · exact ⟨zeroCross_decoderHalf _ s, (zeroCross_other _ s).left⟩
    · exact ⟨delayTick_decoderHalf s, delayTick_readTrace s⟩
    · exact ⟨applyLevel_decoderHalf _ s.block v, rfl⟩
    · exact ⟨rfl, rfl⟩
  · intro i hi
    refine ⟨_, exec_eq_perform i s, ?_⟩
    simp only [List.mem_cons, List.not_mem_nil, or_false] at hi
    obtain rfl | rfl | rfl := hi
    · exact ⟨timebaseTick_firingHalf _ s.block, rfl, rfl⟩
    · exact ⟨irEdge_firingHalf _ true s.block, rfl, rfl⟩
    · exact ⟨irEdge_firingHalf _ false s.block, rfl, rfl⟩

end Sys2Proof.Machine

/-! ### Frames on the wire (R219, R220, R224)

Reception goes from edge to edge: right after an edge the timestamp is that of the timebase, the ticks up to the next
edge leave the decoder as it is, and that edge finds their number as its interval. -/

namespace Sys2Proof.Machine

/-! #### From one edge to the next -/

/-- The elements of the decoder that carry the reception of a frame. -/
structure Receiver where
  irState : IrState
  bitCnt : BitVec 6
  acc : FrameWord
  frame : FrameWord
  frameRdy : Bool

def Block.receiver (b : Block) : Receiver :=
  { irState := b.irState, bitCnt := b.bitCnt, acc := b.acc, frame := b.frame, frameRdy := b.flags.frameRdy }

/-- A block right after an edge, with the reception at `r`. -/
def Block.AfterEdge (r : Receiver) (b : Block) : Prop := b.receiver = r ∧ b.irLast = b.tbCnt

section Reception

variable {c : Config} {s : State} {b : Block} {r r' : Receiver} {lvl : Bool} {n : Nat}

theorem irEdge_afterEdge (h : (irEdge c lvl b).receiver = r) : (irEdge c lvl b).AfterEdge r :=
  ⟨h, (irEdge_irLast c b lvl).trans (irEdge_tbCnt c lvl b).symm⟩

/-- After `n` ticks from an edge the reception is where it was and the interval is `n`. -/
theorem runOps_tbN_afterEdge (hw : c.tbWidth = 16) (h : s.block.AfterEdge r) (hn : n < 65536) :
    (runOps c (tbN n) s).block.receiver = r ∧ (interval c (runOps c (tbN n) s).block).toNat = n := by
  obtain ⟨hr, hlast⟩ := h
  have hcnt : s.block.tbCnt.toNat < 2 ^ c.tbWidth := by
    rw [hw]
    exact s.block.tbCnt.isLt
  rw [runOps_tbN hw.le s hcnt n]
  refine ⟨hr, ?_⟩
  simp only [interval, Config.tick_of_width c hw, State.mapBlock_block, Block.afterOverflows, hlast, hw]
  bv_omega

/-- The next edge, `n` ticks after the one before. -/
theorem Block.AfterEdge.next_edge (hw : c.tbWidth = 16) (h : s.block.AfterEdge r) (hn : n < 65536)
    (hedge : ∀ b : Block, b.receiver = r → (interval c b).toNat = n → (irEdge c lvl b).receiver = r') :
    (runOps c (tbN n ++ [edgeOp lvl]) s).block.AfterEdge r' := by
  obtain ⟨hr, hiv⟩ := runOps_tbN_afterEdge hw h hn
  rw [runOps_append, runOps_cons, runOps_nil, perform_edgeOp]
  exact irEdge_afterEdge (hedge _ hr hiv)

/-- The leading burst from Idle (R208, R209): long enough it leads to Space, otherwise back to Idle; either way no bit
is counted and nothing is delivered. -/
theorem runOps_burst_idle (hw : c.tbWidth = 16) (hf : 0 < c.frameBits) (hst : s.block.irState = .idle)
    (hn : n < 65536) :
    (runOps c (burst n) s).block.AfterEdge
      { irState := if c.markMin ≤ n then .space else .idle, bitCnt := 0, acc := 0, frame := s.block.frame,
        frameRdy := s.block.flags.frameRdy } := by
  have hmark : (perform c (edgeOp true) s).block.AfterEdge
      { irState := .mark, bitCnt := 0, acc := 0, frame := s.block.frame, frameRdy := s.block.flags.frameRdy } := by
    rw [perform_edgeOp]
    refine irEdge_afterEdge ?_
    rw [irEdge_idle_active c _ hst hf]
    rfl
  refine hmark.next_edge (lvl := false) hw hn fun b hb hiv => ?_
  obtain ⟨hst, hbits, hacc, hframe, hrdy⟩ := Receiver.mk.inj hb
  rw [irEdge_mark c false b hst (by rw [hbits]; exact hf), hiv]
  split <;> simp [Block.receiver, hbits, hacc, hframe, hrdy]

/-- The pause after the leading burst (R210): a short one is that of a repeat frame. -/
theorem Block.AfterEdge.space_edge (hw : c.tbWidth = 16) (h : s.block.AfterEdge r) (hst : r.irState = .space)
    (hbits : r.bitCnt.toNat < c.frameBits) (hn : n < 65536) :
    (runOps c (tbN n ++ [edgeOp lvl]) s).block.AfterEdge
      { r with irState := if n < c.spaceRpt then .repeatFrame else .highBit } := by
  refine h.next_edge hw hn fun b hb hiv => ?_
  subst hb
  rw [irEdge_space c lvl b hst hbits, hiv]
  rfl

/-- The leading burst and the pause after it, from Idle (R208 to R210). -/
theorem runOps_lead {lead gap : Nat} (hw : c.tbWidth = 16) (hf : 0 < c.frameBits) (hst : s.block.irState = .idle)
    (hlead : c.markMin ≤ lead) (hlead_lt : lead < 65536) (hgap : gap < 65536) :
    (runOps c (burst lead ++ (tbN gap ++ [edgeOp true])) s).block.AfterEdge
      { irState := if gap < c.spaceRpt then .repeatFrame else .highBit, bitCnt := 0, acc := 0, frame := s.block.frame,
        frameRdy := s.block.flags.frameRdy } := by
  have hburst := runOps_burst_idle hw hf hst hlead_lt
  rw [if_pos hlead] at hburst
  rw [runOps_append]
  exact hburst.space_edge hw rfl hf hgap

/-- A mark within its bounds (R211). -/
theorem Block.AfterEdge.highBit_edge (hw : c.tbWidth = 16) (h : s.block.AfterEdge r) (hst : r.irState = .highBit)
    (hbits : r.bitCnt.toNat < c.frameBits) (hn : n < 65536) (hmin : c.bitMin ≤ n) (hmax : n ≤ c.bitMax) :
    (runOps c (tbN n ++ [edgeOp lvl]) s).block.AfterEdge { r with irState := .lowBit } := by
  refine h.next_edge hw hn fun b hb hiv => ?_
  subst hb
  have hin : within c.bitMin c.bitMax (interval c b) = true := (within_iff _ _ _).2 (hiv ▸ ⟨hmin, hmax⟩)
  rw [irEdge_highBit c lvl b hst hbits, if_pos hin]
  rfl

/-- The reception after one more bit (R212, R213, R215). -/
def Receiver.takeBit (c : Config) (bit : Bool) (r : Receiver) : Receiver :=
  if (r.bitCnt + 1).toNat = c.frameBits then
    { irState := .idle, bitCnt := 0, acc := shiftIn c.accDir r.acc bit, frame := shiftIn c.accDir r.acc bit,
      frameRdy := true }
  else { r with irState := .highBit, bitCnt := r.bitCnt + 1, acc := shiftIn c.accDir r.acc bit }

/-- A bit pause within its bounds (R212, R213, R215). -/
theorem Block.AfterEdge.lowBit_edge (hw : c.tbWidth = 16) (h : s.block.AfterEdge r) (hst : r.irState = .lowBit)
    (hn : n < 65536) (hmin : c.lowMin ≤ n) (hmax : n ≤ c.lowMax) :
    (runOps c (tbN n ++ [edgeOp lvl]) s).block.AfterEdge (r.takeBit c (decide (c.bitDisc ≤ n))) := by
  refine h.next_edge hw hn fun b hb hiv => ?_
  subst hb
  have hin : within c.lowMin c.lowMax (interval c b) = true := (within_iff _ _ _).2 (hiv ▸ ⟨hmin, hmax⟩)
  rw [irEdge_lowBit c lvl b hst, if_neg (by simp [hin]), decodedBit, hiv, apply_ite Block.receiver]
  rfl

end Reception

/-! #### The bits of a frame -/

/-- The operations from one `IRA` of a frame to the next: a mark and the pause after it. -/
def bitOps (p : Nat × Nat) : List Instr := tbN p.1 ++ [edgeOp false] ++ (tbN p.2 ++ [edgeOp true])

/-- A frame on the wire cut at the `IRA`s. -/
theorem wireFrame_eq (lead gap : Nat) (bits : List (Nat × Nat)) :
    wireFrame lead gap bits = burst lead ++ (tbN gap ++ [edgeOp true]) ++ bits.flatMap bitOps := by
  have hbits : bits.flatMap (fun p => burstGap p.1 p.2) ++ [.ira] = .ira :: bits.flatMap bitOps := by
    induction bits with
    | nil => rfl
    | cons p bits ih =>
      rw [List.flatMap_cons, List.append_assoc, ih]
      simp [burstGap, burst, bitOps, edgeOp]
  rw [wireFrame, List.append_assoc, hbits]
  simp [burstGap, edgeOp]

/-- What the accumulator holds after the bits with these marks and pauses (R212, R213). -/
def accAfter (c : Config) (bits : List (Nat × Nat)) (acc : FrameWord) : FrameWord :=
  (bits.map fun p => decide (c.bitDisc ≤ p.2)).foldl (shiftIn c.accDir) acc

/-- A mark and the pause after it are within the bounds of a bit (R211, R212), and the timebase can measure them. -/
structure Config.WellTimedBit (c : Config) (p : Nat × Nat) : Prop where
  mark_lt : p.1 < 65536
  mark_min : c.bitMin ≤ p.1
  mark_max : p.1 ≤ c.bitMax
  pause_lt : p.2 < 65536
  pause_min : c.lowMin ≤ p.2
  pause_max : p.2 ≤ c.lowMax

/-- A mark and the pause after it, within their bounds, deliver one bit. -/
theorem Block.AfterEdge.take_bit {c : Config} {s : State} {r : Receiver} {p : Nat × Nat} (hw : c.tbWidth = 16)
    (h : s.block.AfterEdge r) (hst : r.irState = .highBit) (hbits : r.bitCnt.toNat < c.frameBits)
    (hp : Config.WellTimedBit c p) :
    (runOps c (bitOps p) s).block.AfterEdge (r.takeBit c (decide (c.bitDisc ≤ p.2))) := by
  rw [bitOps, runOps_append]
  have hlow := h.highBit_edge (lvl := false) hw hst hbits hp.mark_lt hp.mark_min hp.mark_max
  exact hlow.lowBit_edge (r := { r with irState := .lowBit }) hw rfl hp.pause_lt hp.pause_min hp.pause_max

/-- The bits that a frame still lacks complete it (R215). -/
theorem Block.AfterEdge.remaining_bits {c : Config} {bits : List (Nat × Nat)} (hw : c.tbWidth = 16)
    (hle : c.frameBits ≤ 32) (hne : bits ≠ []) (htimes : ∀ p ∈ bits, Config.WellTimedBit c p)
    {s : State} {r : Receiver} (h : s.block.AfterEdge r) (hst : r.irState = .highBit)
    (hlen : r.bitCnt.toNat + bits.length = c.frameBits) :
    (runOps c (bits.flatMap bitOps) s).block.AfterEdge
      { irState := .idle, bitCnt := 0, acc := accAfter c bits r.acc, frame := accAfter c bits r.acc,
        frameRdy := true } := by
  induction bits generalizing s r with
  | nil => exact absurd rfl hne
  | cons p bits ih =>
    rw [List.length_cons] at hlen
    obtain ⟨hp, hrest⟩ := List.forall_mem_cons.1 htimes
    have hbit := h.take_bit hw hst (by omega) hp
    have hcount : (r.bitCnt + 1).toNat = r.bitCnt.toNat + 1 := by bv_omega
    rw [List.flatMap_cons, runOps_append]
    by_cases hlast : bits = []
    · subst hlast
      rw [Receiver.takeBit, if_pos (hcount.trans hlen)] at hbit
      exact hbit
    · have hmore : 0 < bits.length := List.length_pos_iff.2 hlast
      rw [Receiver.takeBit, if_neg (by omega)] at hbit
      exact ih hlast hrest hbit rfl (by dsimp only; omega)

/-- A frame of the right length and with all times within their bounds is delivered (R219). -/
theorem runOps_wireFrame {c : Config} {s : State} {lead gap : Nat} {bits : List (Nat × Nat)} (hw : c.tbWidth = 16)
    (hf : 0 < c.frameBits) (hle : c.frameBits ≤ 32) (hst : s.block.irState = .idle) (hlead : c.markMin ≤ lead)
    (hlead_lt : lead < 65536) (hgap : c.spaceRpt ≤ gap) (hgap_lt : gap < 65536) (hlen : bits.length = c.frameBits)
    (htimes : ∀ p ∈ bits, Config.WellTimedBit c p) :
    (runOps c (wireFrame lead gap bits) s).block.AfterEdge
      { irState := .idle, bitCnt := 0, acc := accAfter c bits 0, frame := accAfter c bits 0, frameRdy := true } := by
  have hfirst := runOps_lead hw hf hst hlead hlead_lt hgap_lt
  rw [if_neg hgap.not_gt] at hfirst
  have hne : bits ≠ [] := List.length_pos_iff.1 (hlen ▸ hf)
  rw [wireFrame_eq, runOps_append]
  exact hfirst.remaining_bits hw hle hne htimes rfl ((Nat.zero_add _).trans hlen)

/-! #### The places of the bits in the frame -/

/-- The place of bit `k` of `n` in the accumulator: the bits come in from the top or from the bottom (R213). -/
def bitPlace : AccDir → Nat → Nat → Nat
  | .right, n, k => k + (32 - n)
  | .left, n, k => n - 1 - k

section Places

variable {dir : AccDir} {acc : FrameWord} {bit : Bool} {n k : Nat}

theorem getLsbD_shiftIn_new (hn : n < 32) : (shiftIn dir acc bit).getLsbD (bitPlace dir (n + 1) n) = bit := by
  cases dir with
  | right =>
    rw [show bitPlace .right (n + 1) n = 31 by simp only [bitPlace]; omega]
    cases bit <;> simp [shiftIn]
  | left =>
    rw [show bitPlace .left (n + 1) n = 0 by simp only [bitPlace]; omega]
    cases bit <;> simp [shiftIn]

/-- A shift moves the bits that are there by one place. -/
theorem getLsbD_shiftIn_old (hn : n < 32) (hk : k < n) :
    (shiftIn dir acc bit).getLsbD (bitPlace dir (n + 1) k) = acc.getLsbD (bitPlace dir n k) := by
  cases dir with
  | right =>
    have hlt : k + (31 - n) < 31 := by omega
    have hplace : 1 + (k + (31 - n)) = k + (32 - n) := by omega
    simp [shiftIn, bitPlace, hlt, hplace]
  | left =>
    have hlt : n - k < 32 := by omega
    have hpos : n - k ≠ 0 := by omega
    have hplace : n - k - 1 = n - 1 - k := by omega
    have hplace_lt : n - 1 - k < 32 := by omega
    simp [shiftIn, bitPlace, hlt, hpos, hplace, BitVec.getLsbD_eq_getElem hplace_lt]

/-- After at most 32 bits each of them is at its place, whatever the accumulator held before. -/
theorem getLsbD_foldl_shiftIn (bits : List Bool) (hlen : bits.length ≤ 32) (hk : bits[k]? = some bit) :
    (bits.foldl (shiftIn dir) acc).getLsbD (bitPlace dir bits.length k) = bit := by
  induction bits using List.reverseRecOn with
  | nil => cases hk
  | append_singleton bits last ih =>
    rw [List.length_append, List.length_singleton] at hlen ⊢
    rw [List.foldl_append, List.foldl_cons, List.foldl_nil]
    by_cases hold : k < bits.length
    · rw [List.getElem?_append_left hold] at hk
      rw [getLsbD_shiftIn_old hlen hold]
      exact ih (by omega) hk
    · obtain ⟨hlt, -⟩ := List.getElem?_eq_some_iff.1 hk
      rw [List.length_append, List.length_singleton] at hlt
      obtain rfl : k = bits.length := by omega
      rw [List.getElem?_concat_length, Option.some_inj] at hk
      rw [getLsbD_shiftIn_new hlen, hk]

theorem getLsbD_accAfter {c : Config} {bits : List (Nat × Nat)} {p : Nat × Nat} (hlen : bits.length ≤ 32)
    (hk : bits[k]? = some p) :
    (accAfter c bits acc).getLsbD (bitPlace c.accDir bits.length k) = decide (c.bitDisc ≤ p.2) := by
  rw [accAfter, ← List.length_map fun p => decide (c.bitDisc ≤ p.2)]
  exact getLsbD_foldl_shiftIn _ (by rwa [List.length_map]) (by rw [List.getElem?_map, hk]; rfl)

end Places

/-! #### The obligations -/

/-- Settles O44. -/
theorem shortBurstResynchronises : Obligations.ShortBurstResynchronises := by
  rintro s n hst hn _ rfl
  have h := runOps_burst_idle (c := Config.machine) rfl (by decide) hst (show n < 65536 by omega)
  rw [Config.machine_markMin, if_neg hn.not_ge] at h
  obtain ⟨hst, hbits, -, hframe, hrdy⟩ := Receiver.mk.inj h.left
  exact ⟨hst, hbits, hframe, hrdy⟩

/-- Settles O43: the burst after a short pause is judged in Repeat. -/
theorem repeatFrameIsRecognised : Obligations.RepeatFrameIsRecognised := by
  rintro s lead gap pulse hst hlead hlead_lt hgap hmin hmax _ rfl
  have hpause := runOps_lead (c := Config.machine) (gap := gap) rfl (by decide) hst hlead hlead_lt (by omega)
  rw [Config.machine_spaceRpt, if_pos hgap] at hpause
  obtain ⟨hr, hiv⟩ := runOps_tbN_afterEdge (c := Config.machine) (n := pulse) rfl hpause (by omega)
  have hops : wireRepeat lead gap pulse =
      burst lead ++ (tbN gap ++ [edgeOp true]) ++ tbN pulse ++ [edgeOp false] := by
    simp [wireRepeat, burstGap, burst, edgeOp]
  rw [hops, runOps_append _ _ _ [_], runOps_append _ _ _ (tbN pulse), runOps_cons, runOps_nil, perform_edgeOp,
    State.mapBlock_block]
  generalize (runOps _ (tbN pulse) _).block = b at hr hiv ⊢
  obtain ⟨hst, hbits, -, hframe, hrdy⟩ := Receiver.mk.inj hr
  have hin : within 56 84 (interval Config.machine b) = true := (within_iff _ _ _).2 (hiv.symm ▸ ⟨hmin, hmax⟩)
  rw [irEdge_repeatFrame _ _ b hst (by rw [hbits]; decide), Config.machine_bitMin, Config.machine_bitMax, if_pos hin]
  exact ⟨rfl, rfl, hframe, hrdy⟩

/-- Settles O42: the frame is delivered, with each bit at its place. -/
theorem wellTimedFrameIsDecoded : Obligations.WellTimedFrameIsDecoded := by
  rintro dir s lead gap bits hst hlead hlead_lt hgap hgap_lt hlen htimes _ rfl
  have hbits : ∀ p ∈ bits, Config.WellTimedBit { Config.machine with accDir := dir } p := fun p hp => by
    obtain ⟨hmark_min, hmark_max, hpause_min, hpause_max⟩ := htimes p hp
    exact ⟨by omega, hmark_min, hmark_max, by omega, hpause_min, hpause_max⟩
  have hrun := runOps_wireFrame rfl (show 0 < 32 by decide) (show 32 ≤ 32 from le_rfl) hst hlead hlead_lt hgap hgap_lt
    hlen hbits
  obtain ⟨hst, hcount, -, hframe, hrdy⟩ := Receiver.mk.inj hrun.left
  refine ⟨hrdy, hst, hcount, fun k p hk => ?_⟩
  have hplace := getLsbD_accAfter (c := { Config.machine with accDir := dir }) (acc := 0) hlen.le hk
  rw [← hframe, hlen] at hplace
  cases dir with
  | right => exact hplace
  | left => exact hplace

end Sys2Proof.Machine

/-! ## The host's accesses (`44_host_access.md` R241 to R272, R277)

A write's word is a number in its class, its address and its data; the reads return the views of `10_state.md` R52, bit
by bit; and of the sixteen writes three reach the block, none of them the elements that the hardware drives. -/

namespace Sys2Proof

section Words

variable (w : OpWord) (r : Reg) (d : Byte)

theorem opAddr_toNat : (opAddr w).toNat = w.toNat / 256 % 16 := by
  rw [opAddr, BitVec.extractLsb'_toNat, Nat.shiftRight_eq_div_pow]

theorem opData_toNat : (opData w).toNat = w.toNat % 256 := by
  rw [opData, BitVec.extractLsb'_toNat, Nat.shiftRight_zero]

/-- A word of format HB as a number (`30_encoding.md` R120): its three fields are its digits. -/
theorem formatHB_toNat (k : BitVec 4) : (formatHB k r d).toNat = 4096 * k.toNat + 256 * r.addr.toNat + d.toNat := by
  have hclass := opClass_toNat (formatHB k r d)
  have haddr := opAddr_toNat (formatHB k r d)
  have hdata := opData_toNat (formatHB k r d)
  rw [opClass_formatHB] at hclass
  rw [opAddr_formatHB] at haddr
  rw [opData_formatHB] at hdata
  omega

theorem encode_writeOp_toNat : (encode (r.writeOp d)).toNat = 0x9000 + 256 * r.addr.toNat + d.toNat := by
  rw [encode_writeOp, formatHB_toNat]
  rfl

end Words

/-- The registers that accept a write and ignore it (`44_host_access.md` R240): all but `LEVEL`, `CTRL` and `FLAGS`. -/
def Reg.ignoresWrites : Reg → Bool
  | .level | .ctrl | .flags => false
  | _ => true

end Sys2Proof

namespace Sys2Proof.Machine

/-! ### The bytes of the reads -/

section Bits

theorem getLsbD_eq_decide (d : Byte) (k : Nat) : d.getLsbD k = decide (d.toNat / 2 ^ k % 2 = 1) :=
  Nat.testBit_eq_decide_div_mod_eq

variable (b : Block)

theorem viewCtrl_eq : viewCtrl b = if b.startReq then 1 else 0 := by
  rw [viewCtrl]
  cases b.startReq <;> rfl

/-- `STATUS`, its bits at their places and zeros above them (R244). -/
theorem viewStatus_bits :
    (viewStatus b).getLsbD 0 = b.run ∧ (viewStatus b).getLsbD 1 = kickBit b ∧ (viewStatus b).getLsbD 2 = b.gate
      ∧ (viewStatus b).getLsbD 3 = b.dlyArmed ∧ (viewStatus b).getLsbD 4 = b.irLevel ∧ (viewStatus b).toNat < 32 := by
  simp only [viewStatus]
  generalize b.run = r, kickBit b = k, b.gate = g, b.dlyArmed = a, b.irLevel = l
  revert r k g a l
  decide

/-- `FLAGS`, its bits at their places and zeros above them (R245). -/
theorem viewFlags_bits (f : Flags) :
    (viewFlags f).getLsbD 0 = f.frameRdy ∧ (viewFlags f).getLsbD 1 = f.rptPend ∧ (viewFlags f).getLsbD 2 = f.ovfF
      ∧ (viewFlags f).getLsbD 3 = f.zcF ∧ (viewFlags f).toNat < 16 := by
  obtain ⟨frameRdy, rptPend, ovfF, zcF⟩ := f
  revert frameRdy rptPend ovfF zcF
  decide

/-- `IRSTAT`: the state's code above the low five bits of the count (R248). -/
theorem viewIrstat_toNat : (viewIrstat b).toNat = 32 * b.irState.code.toNat + b.bitCnt.toNat % 32 := by
  have hcode : b.irState.code.toNat < 8 := b.irState.code.isLt
  have hcount : b.bitCnt.toNat % 32 < 2 ^ 5 := Nat.mod_lt _ (by decide)
  have hhigh : (b.irState.code.setWidth 8 <<< 5).toNat = 2 ^ 5 * b.irState.code.toNat := by
    rw [BitVec.toNat_shiftLeft, BitVec.toNat_setWidth, Nat.shiftLeft_eq]
    omega
  have hlow : ((b.bitCnt.extractLsb' 0 5).setWidth 8).toNat = b.bitCnt.toNat % 32 := by
    rw [BitVec.toNat_setWidth, BitVec.extractLsb'_toNat, Nat.shiftRight_zero]
    omega
  rw [viewIrstat, BitVec.toNat_or, hhigh, hlow, ← Nat.two_pow_add_eq_or_of_lt hcount]

/-- A table of reads of registers that show 0: the word of each, and the byte 0. -/
theorem readRows_zero (s : State) (regs : List Reg) (h : ∀ r ∈ regs, regView s.block r = 0) :
    ∀ p ∈ regs.map fun r : Reg => (r.readOp, formatHB 0x8 r 0),
      encode p.1 = p.2 ∧ exec p.1 s = .next (s.returnByte 0) := by
  refine List.forall_mem_map.2 fun r hr => ⟨encode_readOp r, ?_⟩
  rw [exec_readOp, memRead, Reg.ofAddr_addr, h r hr]

end Bits

/-! ### The writes -/

section Writes

variable (c : Config) (r : Reg) (a : RegAddr) (d : Byte) (b : Block) (s : State)

theorem memWrite_of_ignoresWrites (h : r.ignoresWrites = true) : memWrite c r.addr d b = b := by
  cases r with
  | level | ctrl | flags => cases h
  | _ => rfl

theorem exec_writeOp_of_ignoresWrites (h : r.ignoresWrites = true) : exec (r.writeOp d) s = .next s := by
  rw [exec_writeOp, State.mapBlock, memWrite_of_ignoresWrites Config.machine r d s.block h]

/-- A table of writes that are ignored: the word of each is the one at data 0, plus the data. -/
theorem writeRows_ignored (regs : List Reg) (h : ∀ r ∈ regs, r.ignoresWrites = true) :
    ∀ p ∈ regs.map fun r : Reg => (r.writeOp d, 0x9000 + 256 * r.addr.toNat),
      (encode p.1).toNat = p.2 + d.toNat ∧ exec p.1 s = .next s :=
  List.forall_mem_map.2 fun r hr => ⟨encode_writeOp_toNat r d, exec_writeOp_of_ignoresWrites r d s (h r hr)⟩

/-- Write-1-to-clear with the bits of the data as digits (R261). -/
theorem clearFlags_eq (f : Flags) :
    clearFlags d f =
      { frameRdy := if d.toNat % 2 = 1 then false else f.frameRdy
        rptPend := if d.toNat / 2 % 2 = 1 then false else f.rptPend
        ovfF := if d.toNat / 4 % 2 = 1 then false else f.ovfF
        zcF := if d.toNat / 8 % 2 = 1 then false else f.zcF } := by
  have hclear (k : Nat) (v : Bool) : (v && !d.getLsbD k) = if d.toNat / 2 ^ k % 2 = 1 then false else v := by
    rw [getLsbD_eq_decide]
    split <;> simp [*]
  simp only [clearFlags, hclear, pow_zero, Nat.div_one]
  rfl

/-- A write of the host leaves the flags or clears some of them by write-1-to-clear. -/
theorem memWrite_flags_cases :
    (memWrite c a d b).flags = b.flags ∨ (memWrite c a d b).flags = clearFlags d b.flags := by
  obtain h | h | h | h := memWrite_cases c a d b <;> rw [h]
  · exact .inl rfl
  · obtain ⟨-, -, -, -, hflags⟩ := applyLevel_firing c b d
    exact .inl hflags
  · exact .inl rfl
  · exact .inr rfl

/-- No write of the host sets a flag (R277, `60_exceptions.md` R335). -/
theorem memWrite_flags_le :
    (memWrite c a d b).flags.frameRdy ≤ b.flags.frameRdy ∧ (memWrite c a d b).flags.rptPend ≤ b.flags.rptPend
      ∧ (memWrite c a d b).flags.ovfF ≤ b.flags.ovfF ∧ (memWrite c a d b).flags.zcF ≤ b.flags.zcF := by
  obtain h | h := memWrite_flags_cases c a d b <;> rw [h]
  · exact ⟨le_rfl, le_rfl, le_rfl, le_rfl⟩
  · exact ⟨Bool.and_le_left _ _, Bool.and_le_left _ _, Bool.and_le_left _ _, Bool.and_le_left _ _⟩

/-- No write of the host reaches the zero-cross count (R277). -/
theorem memWrite_hcCnt : (memWrite c a d b).hcCnt = b.hcCnt := by
  obtain h | h | h | h := memWrite_cases c a d b <;> rw [h]
  · obtain ⟨-, -, -, hcnt, -⟩ := applyLevel_firing c b d
    exact hcnt
  · rfl
  · rfl

/-- Of the decoder's half a write of the host reaches no more than the flags (R277). -/
theorem memWrite_decoderHalf :
    { (memWrite c a d b).decoderHalf with
      frameRdy := b.flags.frameRdy, rptPend := b.flags.rptPend, ovfF := b.flags.ovfF } = b.decoderHalf := by
  obtain h | h | h | h := memWrite_cases c a d b <;> rw [h]
  · rfl
  · rw [applyLevel_decoderHalf]
    rfl
  · rfl
  · rfl

end Writes

/-! ### The obligations of `44_host_access.md` -/

/-- Settles O56: a write reaches the mapper's elements, the start request or the flags, and the flags only to clear
them. -/
theorem hostCannotDriveHardware : Obligations.HostCannotDriveHardware := by
  intro r d s
  obtain ⟨harmed, hcnt⟩ := memWrite_timer Config.machine r.addr d s.block
  exact ⟨_, exec_writeOp r d s, rfl, rfl, memWrite_gate _ _ _ _, hcnt, harmed, memWrite_hcCnt _ _ _ _,
    memWrite_decoderHalf _ _ _ _, memWrite_flags_le _ _ _ _⟩

/-- Settles O48. -/
theorem readDataRegisters : Obligations.ReadDataRegisters := by
  intro s
  refine ⟨exec_readOp .level s, ?_, exec_readOp .angle s, exec_readOp .hccnt s, exec_readOp .ovfcnt s⟩
  rw [← viewCtrl_eq]
  exact exec_readOp .ctrl s

/-- Settles O49: `STATUS` and `FLAGS` bit by bit, the two fields of `IRSTAT` as its digits to the base 32. -/
theorem readStatusRegisters : Obligations.ReadStatusRegisters := by
  intro s
  have hirstat := viewIrstat_toNat s.block
  have hcount : (viewIrstat s.block).toNat % 32 = s.block.bitCnt.toNat % 32 := by omega
  have hcode : (viewIrstat s.block).toNat / 32 = s.block.irState.code.toNat := by omega
  refine ⟨⟨viewStatus s.block, exec_readOp .status s, viewStatus_bits s.block⟩,
    ⟨viewFlags s.block.flags, exec_readOp .flags s, viewFlags_bits s.block.flags⟩,
    ⟨viewIrstat s.block, exec_readOp .irstat s, hcount, hcode.trans ?_⟩⟩
  cases s.block.irState <;> rfl

/-- Settles O51: the reserved addresses have the zero view and ignore writes. -/
theorem reservedAddresses : Obligations.ReservedAddresses := by
  intro s d
  constructor
  · exact readRows_zero s [.rsvc, .rsvd, .rsve, .rsvf] (by simp [regView, viewReserved])
  · exact writeRows_ignored d s [.rsvc, .rsvd, .rsve, .rsvf] (by decide)

/-- Settles O52. -/
theorem readOnlyRegisters : Obligations.ReadOnlyRegisters := fun s d =>
  writeRows_ignored d s [.angle, .status, .hccnt, .ovfcnt, .irstat, .frame0, .frame1, .frame2, .frame3] (by decide)

/-- Settles O53: the start request is the lowest bit of the data. -/
theorem writeCtrlStoresBitZero : Obligations.WriteCtrlStoresBitZero := by
  refine ⟨fun s d => ⟨encode_writeOp_toNat .ctrl d, ?_⟩, fun s => ⟨exec_writeOp .ctrl 0x01 s, exec_writeOp .ctrl 0xFE s⟩⟩
  have hbit : d.getLsbD 0 = decide (d.toNat % 2 = 1) := by rw [getLsbD_eq_decide, pow_zero, Nat.div_one]
  rw [← hbit]
  exact exec_writeOp .ctrl d s

/-- Settles O54. -/
theorem writeFlagsClears : Obligations.WriteFlagsClears := by
  intro s d
  rw [← clearFlags_eq]
  exact exec_writeOp .flags d s

end Sys2Proof.Machine

/-! ## The host at its port (`45_host_environment.md` R283 to R287, R297, R304)

Boot and the speed commands come to the same two accesses at the block: the start request, where there is one, and the
level. Both are asked here of a stopped fan. -/

namespace Sys2Proof.Machine

/-! ### A level written to a stopped fan (`41_speed_mapper.md` R172, R173) -/

section StoppedFan

variable (c : Config) (d : Byte)

theorem clampLevel_le_topLevel : clampLevel c d ≤ c.topLevel := by
  simp only [Fin.le_def, clampLevel]
  omega

/-- The clamp leaves the levels of the configuration as they are. -/
theorem clampLevel_ofNat {n : Level} (h : n ≤ c.topLevel) : clampLevel c (BitVec.ofNat 8 n.val) = n := by
  have hn : n.val < 10 := n.isLt
  have hsigned : (BitVec.ofNat 8 n.val).toInt = n.val := by
    rw [BitVec.toInt_eq_toNat_of_lt] <;> rw [BitVec.toNat_ofNat] <;> omega
  rw [Fin.le_def] at h
  apply Fin.ext
  simp only [clampLevel, hsigned]
  omega

/-- Whether a written level starts the fan, if it is stopped: it was asked to start, and the level is not 0. -/
def startsFan (b : Block) : Bool := b.startReq && decide (clampLevel c d ≠ 0)

/-- The cases A to C of R173 in one: a stopped fan starts through the hold at full speed, or takes the angle of its
level. -/
theorem applyLevel_of_stopped {b : Block} (h : b.run = false) :
    applyLevel c d b =
      { b with
        startReq := false
        level := clampLevel c d
        run := startsFan c d b
        kickCnt := if startsFan c d b then c.kickHalfcycles else if clampLevel c d = 0 then 0 else b.kickCnt
        phaseAngle := lutAt c (if startsFan c d b then c.fullIdx else clampLevel c d) } := by
  obtain ⟨hn, heq⟩ | ⟨hn, -, hreq, heq⟩ | ⟨hn, -, hreq, heq⟩ | ⟨-, hrun, -⟩ | ⟨-, hrun, -⟩ := applyLevel_cases c d b
  · simp [heq, startsFan, hn]
  · simp [heq, startsFan, hn, hreq]
  · simp [heq, startsFan, hn, hreq, h]
  · exact absurd (h.symm.trans hrun) Bool.false_ne_true
  · exact absurd (h.symm.trans hrun) Bool.false_ne_true

/-- A start request that depends on a bit. -/
theorem writeCtrl_if (start : Bool) (b : Block) :
    (if start then writeCtrl 1 b else b) = { b with startReq := start || b.startReq } := by
  cases start <;> rfl

end StoppedFan

/-! ### The boot sequence (R297) -/

/-- The boot sequence is a written level, after a start request if the stored fan-running bit asks for it; its read of
`STATUS` changes nothing in the block. -/
theorem runOps_bootOps (c : Config) (speed status : Byte) (s : State) :
    (runOps c (bootOps c speed status) s).block =
        applyLevel c (BitVec.ofNat 8 (clampLevel c speed).val)
          (if status.getLsbD 0 then writeCtrl 1 s.block else s.block)
      ∧ (runOps c (bootOps c speed status) s).gateTrace = s.gateTrace := by
  rw [bootOps]
  cases status.getLsbD 0 <;> exact ⟨rfl, rfl⟩

/-! ### What the host's steps do (R282 to R287, `44_host_access.md` R273) -/

section HostSteps

variable (c : Config) (hc : HostConfig) (x : Site)

theorem Site.mapHost_machine (f : HostData → HostData) : (x.mapHost f).machine = x.machine := rfl

/-- The four bytes of `FRAME`, the last one read at the top, are the frame (`44_host_access.md` R249 to R252). -/
theorem viewFrame_append (b : Block) :
    viewFrame 3 b ++ viewFrame 2 b ++ viewFrame 1 b ++ viewFrame 0 b = b.frame := by
  have hbelow (k n : Nat) :
      b.frame.extractLsb' (8 * k + 8) n ++ viewFrame k b = b.frame.extractLsb' (8 * k) (n + 8) :=
    BitVec.extractLsb'_append_extractLsb'_eq_extractLsb' rfl
  have hhigh : viewFrame 3 b ++ viewFrame 2 b = b.frame.extractLsb' 16 16 := hbelow 2 8
  have hupper : b.frame.extractLsb' 16 16 ++ viewFrame 1 b = b.frame.extractLsb' 8 24 := hbelow 1 16
  have hall : b.frame.extractLsb' 8 24 ++ viewFrame 0 b = b.frame.extractLsb' 0 32 := hbelow 0 24
  rw [hhigh, hupper, hall]
  exact BitVec.extractLsb'_eq_self

/-- Taking a frame that is ready: the accesses of R273, then the word that was in `FRAME`. -/
theorem Site.takeFrame_of_ready (h : x.machine.block.flags.frameRdy = true) :
    x.takeFrame c hc =
      ({ x with machine := runOps c takeFrameOps x.machine } : Site).interpret c hc x.machine.block.frame := by
  obtain ⟨hbit, -⟩ := viewFlags_bits x.machine.block.flags
  rw [← viewFrame_append]
  exact if_pos (hbit.trans h)

/-- Of the accesses that take a frame only the last, the write to `FLAGS`, reaches the block. -/
theorem runOps_takeFrameOps_block (s : State) : (runOps c takeFrameOps s).block = writeFlags 0x01 s.block := rfl

/-- A valid frame with a command of the table is dispatched (R283, R284). -/
theorem Site.interpret_of_command {w : FrameWord} {cmd : Command} (hvalid : frameValid c.accDir w = true)
    (hcmd : hc.cmdTable.lookup (frameFields c.accDir w).2.2.1 = some cmd) :
    x.interpret c hc w = (x.mapHost fun h => { h with badFrame := false }).dispatch c hc cmd := by
  simp [Site.interpret, hvalid, hcmd]

/-- Applying the speed at the block: the start request, if any, and the level (R286). -/
theorem Site.applySpeed_block (start : Bool) :
    (x.applySpeed c start).machine.block =
      applyLevel c x.host.speed (if start then writeCtrl 1 x.machine.block else x.machine.block) := by
  cases start <;> rfl

/-- Applying the speed at the host: the Logical Speed is read back, and the countdown is cancelled if the
fan does not run then (R286, R289). -/
theorem Site.applySpeed_host (start : Bool) :
    (x.applySpeed c start).host =
      if (x.applySpeed c start).machine.block.run then
        { x.host with speed := viewLevel (x.applySpeed c start).machine.block, eligCnt := 0 }
      else
        ({ x.host with speed := viewLevel (x.applySpeed c start).machine.block, eligCnt := 0 } : HostData).cancel := by
  obtain ⟨hrun, -⟩ := viewStatus_bits (x.applySpeed c start).machine.block
  rw [← hrun]
  cases start <;> rfl

theorem Site.applySpeed_speed (start : Bool) :
    (x.applySpeed c start).host.speed = viewLevel (x.applySpeed c start).machine.block := by
  rw [Site.applySpeed_host]
  split <;> rfl

theorem Site.applySpeed_unknown (start : Bool) : (x.applySpeed c start).host.unknown = x.host.unknown := by
  rw [Site.applySpeed_host]
  split <;> rfl

/-- A digit is a start request and the level of the digit (R285, R286). -/
theorem Site.dispatch_digit_block (k : Level) :
    (x.dispatch c hc (.digit k)).machine.block =
      applyLevel c (BitVec.ofNat 8 k.val) (writeCtrl 1 x.machine.block) :=
  Site.applySpeed_block c _ true

theorem Site.dispatch_digit_speed (k : Level) :
    (x.dispatch c hc (.digit k)).host.speed = viewLevel (x.dispatch c hc (.digit k)).machine.block :=
  Site.applySpeed_speed c _ true

/-- The unknown-command flag is cleared before the action, which leaves it (R287). -/
theorem Site.dispatch_digit_unknown (k : Level) : (x.dispatch c hc (.digit k)).host.unknown = false :=
  Site.applySpeed_unknown c _ true

theorem Site.dispatch_indicator (cmd : Command) :
    (x.dispatch c hc cmd).host.indicator = hc.feedbackHalfcycles := rfl

end HostSteps

/-! ### The obligations of `45_host_environment.md` -/

/-- Settles O60: the frame becomes the command DIGIT5, and the level 5 written after a start request finds the fan
stopped. -/
theorem digitFiveStartsFan : Obligations.DigitFiveStartsFan := by
  intro hc x htable hstop hready hvalid hcmd y hy
  have hlookup : hc.cmdTable.lookup (frameFields .right x.machine.block.frame).2.2.1 = some (.digit 5) := by
    rwa [hcmd]
  have hclamp : clampLevel Config.machine 5#8 = 5 := clampLevel_ofNat Config.machine (n := 5) (by decide)
  rw [Site.takeFrame_of_ready Config.machine hc x hready,
    Site.interpret_of_command Config.machine hc _ hvalid hlookup] at hy
  have hblock : y.machine.block =
      { writeFlags 0x01 x.machine.block with
        startReq := false, level := 5, run := true, kickCnt := 200, phaseAngle := lutAt Config.machine 9 } := by
    have hstill : (writeCtrl 1 (writeFlags 0x01 x.machine.block)).run = false := hstop
    rw [← hy, Site.dispatch_digit_block, Site.mapHost_machine, runOps_takeFrameOps_block,
      applyLevel_of_stopped _ _ hstill]
    simp [startsFan, hclamp, writeCtrl]
  have hspeed : y.host.speed = viewLevel y.machine.block := by
    rw [← hy, Site.dispatch_digit_speed]
  have hunknown : y.host.unknown = false := by
    rw [← hy, Site.dispatch_digit_unknown]
  have hindicator : y.host.indicator = hc.feedbackHalfcycles := by
    rw [← hy, Site.dispatch_indicator]
  rw [hspeed, hblock]
  exact ⟨rfl, rfl, rfl, rfl, Bool.and_false _, rfl, hindicator, hunknown⟩

/-- Settles O59: reset leaves the fan stopped with no start request and no hold, and the clamped speed is not clamped
again. -/
theorem bootAppliesStoredSpeed : Obligations.BootAppliesStoredSpeed := by
  rintro speed status t rfl
  obtain ⟨hblock, htrace⟩ := runOps_bootOps Config.machine speed status State.reset
  have hclamp := clampLevel_ofNat Config.machine (clampLevel_le_topLevel Config.machine speed)
  rw [hblock, htrace, writeCtrl_if, applyLevel_of_stopped _ _ rfl]
  simp [startsFan, hclamp, State.reset, State.resetOf, Block.reset]

end Sys2Proof.Machine

/-! ## The soft error (`60_exceptions.md` R321, R328, R329)

Which cause an edge raises is decided by the state it finds and its interval alone, state by state. -/

namespace Sys2Proof.Machine

theorem within_eq_false_iff (lo hi : Nat) (iv : Ticks) :
    within lo hi iv = false ↔ iv.toNat < lo ∨ hi < iv.toNat := by
  rw [← Bool.not_eq_true, within_iff, not_and_or, not_le, not_le]

/-- The value of the interval, at every width of the timebase (`43_ir_decoder.md` R207, log entry 2). -/
theorem interval_toNat (c : Config) (b : Block) :
    (interval c b).toNat = (b.tbCnt - b.irLast).toNat % 2 ^ c.tbWidth :=
  Config.tick_toNat c _

section SoftErrors

variable (c : Config) (lvl : Bool) {b : Block}

theorem edgeError_idle (h : b.irState = .idle) : edgeError c lvl b = none := by
  cases lvl <;> simp [edgeError, stateRule, h, ruleIdle]

theorem edgeError_mark (h : b.irState = .mark) :
    edgeError c lvl b = if c.markMin ≤ (interval c b).toNat then none else some .markShort := by
  by_cases hm : c.markMin ≤ (interval c b).toNat <;> simp [edgeError, stateRule, h, ruleMark, hm]

theorem edgeError_space (h : b.irState = .space) : edgeError c lvl b = none := by
  simp [edgeError, stateRule, h, ruleSpace]

theorem edgeError_highBit (h : b.irState = .highBit) :
    edgeError c lvl b = if within c.bitMin c.bitMax (interval c b) then none else some .highOutOfBounds := by
  simp [edgeError, stateRule, h, ruleHighBit]

theorem edgeError_lowBit (h : b.irState = .lowBit) :
    edgeError c lvl b = if within c.lowMin c.lowMax (interval c b) then none else some .lowOutOfBounds := by
  simp [edgeError, stateRule, h, ruleLowBit]

theorem edgeError_repeatFrame (h : b.irState = .repeatFrame) :
    edgeError c lvl b = if within c.bitMin c.bitMax (interval c b) then none else some .repeatOutOfBounds := by
  cases hw : within c.bitMin c.bitMax (interval c b) <;> simp [edgeError, stateRule, h, ruleRepeat, hw]

/-- An edge that raises a soft error ends with the decoder reset, after the rule of its state (R217, R328). -/
theorem irEdge_of_softError (h : edgeError c lvl b ≠ none) :
    irEdge c lvl b = decoderReset (stateRule c (edgePrologue c lvl b)).block :=
  if_pos (Option.isSome_iff_ne_none.2 h)

/-- Of the rules that raise a soft error only that of LowBit does more than change the state (R209, R211 to R214). -/
theorem stateRule_of_softError (h : edgeError c lvl b ≠ none) :
    decoderReset (stateRule c (edgePrologue c lvl b)).block =
      decoderReset
        { b with
          irLast := b.tbCnt, irLevel := lvl, irIdle := 0
          acc := if b.irState = .lowBit then shiftIn c.accDir b.acc (decodedBit c (interval c b)) else b.acc } := by
  cases hst : b.irState with
  | idle => exact absurd (edgeError_idle c lvl hst) h
  | mark => simp [stateRule, hst, ruleMark, decoderReset]
  | space => exact absurd (edgeError_space c lvl hst) h
  | highBit => simp [stateRule, hst, ruleHighBit, decoderReset]
  | lowBit => simp [stateRule, hst, ruleLowBit, takeBit, decoderReset]
  | repeatFrame =>
    have hout : within c.bitMin c.bitMax (interval c b) = false := by
      simpa [edgeError_repeatFrame c lvl hst] using h
    simp [stateRule, hst, ruleRepeat, hout, decoderReset]

end SoftErrors

/-- Settles O39: in each state at most one cause can be raised, by the bounds of that state. -/
theorem softErrorCauses : Obligations.SoftErrorCauses := by
  intro c lvl b iv hiv
  obtain rfl : iv = (interval c b).toNat := hiv.trans (interval_toNat c b).symm
  cases hst : b.irState with
  | idle => simp [edgeError_idle c lvl hst]
  | mark => simp [edgeError_mark c lvl hst]
  | space => simp [edgeError_space c lvl hst]
  | highBit => simp [edgeError_highBit c lvl hst, within_eq_false_iff]
  | lowBit => simp [edgeError_lowBit c lvl hst, within_eq_false_iff]
  | repeatFrame => simp [edgeError_repeatFrame c lvl hst, within_eq_false_iff]

/-- Settles O40. -/
theorem softErrorOnlyResetsDecoder : Obligations.SoftErrorOnlyResetsDecoder := by
  intro c lvl s herr
  rw [perform_edgeOp, State.mapBlock, irEdge_of_softError c lvl herr, stateRule_of_softError c lvl herr]
  rfl

end Sys2Proof.Machine

/-! ## The stimuli of one cycle (`60_exceptions.md` R327)

The host's access comes first, so what it clears is set again by the hardware stimulus that follows. A clause about a flag
cuts the cycle at that stimulus: what comes before leaves the elements that the stimulus judges, what comes after leaves
the flag. -/

namespace Sys2Proof

/-! ### The operations of a cycle, cut at one of them -/

section CycleOps

open Machine

variable (k : Cycle)

/-- The host's access, if any. -/
def Cycle.accessOps : List Instr := (k.host.map accessOp).toList

/-- The edge of `ir`, if any. -/
def Cycle.edgeOps : List Instr := (k.ir.map edgeOp).toList

/-- The tick of the timebase, if any. -/
def Cycle.tickOps : List Instr := if k.tb then [.tb] else []

/-- What comes before the edge. -/
def Cycle.beforeEdge : List Instr :=
  k.accessOps ++ (if k.zc then [.zc] else []) ++ (if k.dt then [.dt] else [])

/-- What comes after `ZC`. -/
def Cycle.afterZc : List Instr := (if k.dt then [.dt] else []) ++ k.edgeOps ++ k.tickOps

variable {k}

theorem cycleOps_of_rst (h : k.rst = true) : cycleOps k = [.rst] := if_pos h

theorem cycleOps_of_noRst (h : k.rst = false) : cycleOps k = k.beforeEdge ++ k.edgeOps ++ k.tickOps := by
  rw [cycleOps, h]
  rfl

theorem cycleOps_of_zc (h : k.rst = false) (hzc : k.zc = true) : cycleOps k = k.accessOps ++ .zc :: k.afterZc := by
  simp [cycleOps_of_noRst h, Cycle.beforeEdge, Cycle.afterZc, hzc]

theorem cycleOps_of_ir {lvl : Bool} (h : k.rst = false) (hir : k.ir = some lvl) :
    cycleOps k = k.beforeEdge ++ edgeOp lvl :: k.tickOps := by
  simp [cycleOps_of_noRst h, Cycle.edgeOps, hir]

theorem cycleOps_of_tb (h : k.rst = false) (htb : k.tb = true) :
    cycleOps k = k.beforeEdge ++ k.edgeOps ++ [.tb] := by
  simp [cycleOps_of_noRst h, Cycle.tickOps, htb]

theorem Cycle.mem_edgeOps {i : Instr} (h : i ∈ k.edgeOps) : ∃ lvl, i = edgeOp lvl := by
  simp only [Cycle.edgeOps, Option.mem_toList, Option.map_eq_some_iff] at h
  obtain ⟨lvl, -, rfl⟩ := h
  exact ⟨lvl, rfl⟩

theorem Cycle.mem_beforeEdge {i : Instr} (h : i ∈ k.beforeEdge) : (∃ a, i = accessOp a) ∨ i = .zc ∨ i = .dt := by
  simp only [Cycle.beforeEdge, Cycle.accessOps, List.mem_append, List.mem_ite_nil_right, List.mem_singleton,
    Option.mem_toList, Option.map_eq_some_iff] at h
  obtain (⟨a, -, rfl⟩ | ⟨-, rfl⟩) | ⟨-, rfl⟩ := h
  · exact .inl ⟨a, rfl⟩
  · exact .inr (.inl rfl)
  · exact .inr (.inr rfl)

theorem Cycle.mem_afterZc {i : Instr} (h : i ∈ k.afterZc) : i = .dt ∨ (∃ lvl, i = edgeOp lvl) ∨ i = .tb := by
  simp only [Cycle.afterZc, Cycle.tickOps, List.mem_append, List.mem_ite_nil_right, List.mem_singleton] at h
  obtain (⟨-, rfl⟩ | hedge) | ⟨-, rfl⟩ := h
  · exact .inl rfl
  · exact .inr (.inl (Cycle.mem_edgeOps hedge))
  · exact .inr (.inr rfl)

end CycleOps

end Sys2Proof

namespace Sys2Proof.Machine

/-! ### Before the edge: what an edge judges is left alone -/

/-- Two blocks with the same decoder state, the same bit count, the same timebase and the same timestamp. -/
structure Block.SameJudged (b b' : Block) : Prop where
  irState : b'.irState = b.irState
  bitCnt : b'.bitCnt = b.bitCnt
  tbCnt : b'.tbCnt = b.tbCnt
  irLast : b'.irLast = b.irLast

section Judged

variable (c : Config) {b b' : Block} {s : State}

theorem Block.SameJudged.trans {b'' : Block} (h : b.SameJudged b') (h' : b'.SameJudged b'') : b.SameJudged b'' where
  irState := h'.irState.trans h.irState
  bitCnt := h'.bitCnt.trans h.bitCnt
  tbCnt := h'.tbCnt.trans h.tbCnt
  irLast := h'.irLast.trans h.irLast

theorem Block.SameJudged.of_decoderHalf (h : b'.decoderHalf = b.decoderHalf) : b.SameJudged b' where
  irState := congrArg DecoderHalf.irState h
  bitCnt := congrArg DecoderHalf.bitCnt h
  tbCnt := congrArg DecoderHalf.tbCnt h
  irLast := congrArg DecoderHalf.irLast h

theorem Block.SameJudged.interval_eq (h : b.SameJudged b') : interval c b' = interval c b := by
  rw [interval, interval, h.tbCnt, h.irLast]

/-- Of the decoder's half a write reaches no more than the flags (`44_host_access.md` R277). -/
theorem memWrite_sameJudged (a : RegAddr) (d : Byte) (b : Block) : b.SameJudged (memWrite c a d b) :=
  have h := memWrite_decoderHalf c a d b
  { irState := congrArg DecoderHalf.irState h
    bitCnt := congrArg DecoderHalf.bitCnt h
    tbCnt := congrArg DecoderHalf.tbCnt h
    irLast := congrArg DecoderHalf.irLast h }

theorem perform_accessOp_sameJudged (a : HostAccess) (s : State) :
    s.block.SameJudged (perform c (accessOp a) s).block := by
  cases a with
  | rd r =>
    rw [accessOp, perform_readOp]
    exact .of_decoderHalf rfl
  | wr r d =>
    rw [accessOp, perform_writeOp]
    exact memWrite_sameJudged c r.addr d s.block

/-- What comes before the edge in a cycle leaves alone what the edge judges. -/
theorem runOps_beforeEdge (k : Cycle) (s : State) : s.block.SameJudged (runOps c k.beforeEdge s).block := by
  refine runOps_induction c s (P := fun t => s.block.SameJudged t.block) _ (fun i hi t ht => ht.trans ?_)
    (.of_decoderHalf rfl)
  obtain ⟨a, rfl⟩ | rfl | rfl := Cycle.mem_beforeEdge hi
  · exact perform_accessOp_sameJudged c a t
  · exact .of_decoderHalf (zeroCross_decoderHalf c t)
  · exact .of_decoderHalf (delayTick_decoderHalf t)

/-- Before the tick of a cycle nothing reaches the timebase (`42_timebase.md` R199). -/
theorem runOps_beforeTick_tbCnt (k : Cycle) (s : State) :
    (runOps c (k.beforeEdge ++ k.edgeOps) s).block.tbCnt = s.block.tbCnt := by
  rw [runOps_append]
  refine runOps_induction c _ (P := fun t => t.block.tbCnt = s.block.tbCnt) _ (fun i hi t ht => ?_)
    (runOps_beforeEdge c k s).tbCnt
  obtain ⟨lvl, rfl⟩ := Cycle.mem_edgeOps hi
  rw [perform_edgeOp]
  exact (irEdge_tbCnt c lvl t.block).trans ht

end Judged

/-! ### After the set: which later operations reach the flag (`42_timebase.md` R191 to R194) -/

section Flags

variable (c : Config) (lvl : Bool) {b : Block}

/-- A repeat is dropped by a tick that wraps and completes the inactivity window (R194). -/
theorem timebaseTick_rptPend (b : Block) :
    (timebaseTick c b).flags.rptPend =
      (b.flags.rptPend &&
        !decide (c.tick (b.tbCnt + 1) = 0 ∧ c.irIdleTicks.toNat ≤ saturatedIdle c b)) := by
  by_cases hwrap : c.tick (b.tbCnt + 1) = 0
  · simp only [timebaseTick_wrap c b hwrap, hwrap, true_and]
  · simp only [timebaseTick_count c b hwrap, hwrap, false_and, decide_false, Bool.not_false, Bool.and_true]

theorem timebaseTick_frameRdy (b : Block) : (timebaseTick c b).flags.frameRdy = b.flags.frameRdy := by
  by_cases hwrap : c.tick (b.tbCnt + 1) = 0
  · rw [timebaseTick_wrap c b hwrap]
  · rw [timebaseTick_count c b hwrap]

theorem timebaseTick_ovfF_of_wrap (h : c.tick (b.tbCnt + 1) = 0) : (timebaseTick c b).flags.ovfF = true := by
  rw [timebaseTick_wrap c b h]

/-- After one overflow tick from `IR_IDLE` = 0 a window of at least two ticks is not over (R194). -/
theorem saturatedIdle_lt_of_zero (h0 : b.irIdle = 0) (hticks : 2 ≤ c.irIdleTicks.toNat) :
    saturatedIdle c b < c.irIdleTicks.toNat := by
  rw [saturatedIdle, h0]
  exact (Nat.min_le_left _ _).trans_lt hticks

/-- `ZC_F` belongs to the firing engine's half; nothing after `ZC` in a cycle reaches it (`10_state.md` R51). -/
theorem perform_zcF_of_mem_afterZc {k : Cycle} {i : Instr} (hi : i ∈ k.afterZc) (s : State) :
    (perform c i s).block.flags.zcF = s.block.flags.zcF := by
  obtain rfl | ⟨lvl, rfl⟩ | rfl := Cycle.mem_afterZc hi
  · rw [perform_dt]
    obtain ⟨-, h⟩ | ⟨-, -, h⟩ | ⟨-, -, h⟩ := delayTick_cases s <;> rw [h]
    rw [expiry_block]
  · rw [perform_edgeOp]
    exact congrArg FiringHalf.zcF (irEdge_firingHalf c lvl s.block)
  · exact congrArg FiringHalf.zcF (timebaseTick_firingHalf c s.block)

/-! ### The edges that set a flag -/

/-- An edge in LowBit that takes the last bit in bounds delivers the frame (`43_ir_decoder.md` R212, R215). -/
theorem irEdge_frameRdy (hst : b.irState = .lowBit) (hin : within c.lowMin c.lowMax (interval c b) = true)
    (hlast : (b.bitCnt + 1).toNat = c.frameBits) : (irEdge c lvl b).flags.frameRdy = true := by
  rw [irEdge_lowBit c lvl b hst, if_neg (by simp [hin]), if_pos hlast]

/-- The epilogue of an edge does not reach the pending repeat (R215 to R217). -/
theorem edgeEpilogue_rptPend (e : Edge) : (edgeEpilogue c e).flags.rptPend = e.block.flags.rptPend := by
  unfold edgeEpilogue
  split_ifs <;> rfl

/-- An edge in Repeat in bounds confirms the repeat, whatever the bit count (R214). -/
theorem irEdge_rptPend (hst : b.irState = .repeatFrame) (hin : within c.bitMin c.bitMax (interval c b) = true) :
    (irEdge c lvl b).flags.rptPend = true := by
  rw [irEdge, edgeEpilogue_rptPend]
  simp [stateRule, hst, ruleRepeat, hin]

theorem irEdge_irIdle (b : Block) : (irEdge c lvl b).irIdle = 0 := by
  rw [irEdge_eq_workingAs]
  rfl

end Flags

/-! ### A set wins over its clear -/

section SetWins

variable {c : Config} {s : State} {k : Cycle} (hrst : k.rst = false)
include hrst

theorem cycle_zcF (hzc : k.zc = true) : (runOps c (cycleOps k) s).block.flags.zcF = true := by
  rw [cycleOps_of_zc hrst hzc, runOps_append, runOps_cons, perform_zc]
  refine runOps_induction c _ (P := fun t => t.block.flags.zcF = true) _
    (fun i hi t ht => (perform_zcF_of_mem_afterZc c hi t).trans ht) ?_
  rw [zeroCross_eq]

theorem cycle_ovfF (htb : k.tb = true) (hwrap : c.tick (s.block.tbCnt + 1) = 0) :
    (runOps c (cycleOps k) s).block.flags.ovfF = true := by
  rw [cycleOps_of_tb hrst htb, runOps_append, runOps_cons, runOps_nil, perform_tb]
  refine timebaseTick_ovfF_of_wrap c ?_
  rwa [runOps_beforeTick_tbCnt]

theorem cycle_frameRdy (hir : k.ir ≠ none) (hst : s.block.irState = .lowBit)
    (hlast : (s.block.bitCnt + 1).toNat = c.frameBits)
    (hin : within c.lowMin c.lowMax (interval c s.block) = true) :
    (runOps c (cycleOps k) s).block.flags.frameRdy = true := by
  obtain ⟨lvl, hlvl⟩ := Option.ne_none_iff_exists'.1 hir
  have hsame := runOps_beforeEdge c k s
  have hedge : (irEdge c lvl (runOps c k.beforeEdge s).block).flags.frameRdy = true :=
    irEdge_frameRdy c lvl (hsame.irState.trans hst) (by rwa [hsame.interval_eq c]) (by rwa [hsame.bitCnt])
  rw [cycleOps_of_ir hrst hlvl, runOps_append, runOps_cons, perform_edgeOp, Cycle.tickOps]
  split
  · exact (timebaseTick_frameRdy c _).trans hedge
  · exact hedge

theorem cycle_rptPend (hir : k.ir ≠ none) (hst : s.block.irState = .repeatFrame)
    (hin : within c.bitMin c.bitMax (interval c s.block) = true)
    (hkept : k.tb = false ∨ c.tick (s.block.tbCnt + 1) ≠ 0 ∨ 2 ≤ c.irIdleTicks.toNat) :
    (runOps c (cycleOps k) s).block.flags.rptPend = true := by
  obtain ⟨lvl, hlvl⟩ := Option.ne_none_iff_exists'.1 hir
  have hsame := runOps_beforeEdge c k s
  have hedge : (irEdge c lvl (runOps c k.beforeEdge s).block).flags.rptPend = true :=
    irEdge_rptPend c lvl (hsame.irState.trans hst) (by rwa [hsame.interval_eq c])
  rw [cycleOps_of_ir hrst hlvl, runOps_append, runOps_cons, perform_edgeOp, Cycle.tickOps]
  split
  case isFalse => exact hedge
  case isTrue htb =>
    have hopen : c.tick (s.block.tbCnt + 1) ≠ 0 ∨ 2 ≤ c.irIdleTicks.toNat :=
      hkept.resolve_left (by simp [htb])
    rw [runOps_cons, runOps_nil, perform_tb, State.mapBlock_block, timebaseTick_rptPend, State.mapBlock_block, hedge,
      irEdge_tbCnt, hsame.tbCnt, Bool.true_and, Bool.not_eq_true', decide_eq_false_iff_not]
    rintro ⟨hwrap, hfull⟩
    have hticks := hopen.resolve_left (not_not_intro hwrap)
    exact (saturatedIdle_lt_of_zero c (irEdge_irIdle c lvl _) hticks).not_ge hfull

end SetWins

/-- The bit that fills the frame of an admissible configuration does not wrap the bit count. -/
theorem Block.bitCnt_succ_of_last {c : Config} (hc : c.admissible = true) {b : Block}
    (h : b.bitCnt.toNat + 1 = c.frameBits) : (b.bitCnt + 1).toNat = c.frameBits := by
  have hle := Config.frameBits_le hc
  rw [← h]
  bv_omega

/-- Settles O57. -/
theorem sameCycleSetWins : Obligations.SameCycleSetWins := by
  intro c s k
  refine ⟨fun hrst => ?_, cycle_zcF, cycle_ovfF, fun hc hrst hir hst hlast hmin hmax => ?_,
    fun hrst hir hst hmin hmax => ?_⟩
  · rw [cycleOps_of_rst hrst]
    rfl
  · exact cycle_frameRdy hrst hir hst (Block.bitCnt_succ_of_last hc hlast) ((within_iff _ _ _).2 ⟨hmin, hmax⟩)
  · exact cycle_rptPend hrst hir hst ((within_iff _ _ _).2 ⟨hmin, hmax⟩)

end Sys2Proof.Machine

/-! ## Totality (`60_exceptions.md` R332) -/

namespace Sys2Proof.Machine

theorem delayTick_stimuli (s : State) : (delayTick s).stimuli = s.stimuli := by
  obtain ⟨-, h⟩ | ⟨-, -, h⟩ | ⟨-, -, h⟩ := delayTick_cases s <;> rw [h]
  exact (expiry_other s).right

/-- No operation reaches the stimuli to come (log entry 17). -/
theorem perform_stimuli (c : Config) (i : Instr) (s : State) : (perform c i s).stimuli = s.stimuli := by
  obtain rfl | rfl | rfl | rfl | ⟨lvl, rfl⟩ | ⟨r, rfl⟩ | ⟨r, d, rfl⟩ := Instr.cases_access i
  · exact resetOp_stimuli c s
  · exact (zeroCross_other c s).right
  · exact delayTick_stimuli s
  · rfl
  · rw [perform_edgeOp, State.mapBlock_stimuli]
  · rw [perform_readOp, State.returnByte_stimuli]
  · rw [perform_writeOp, State.mapBlock_stimuli]

/-- Settles O9: the meaning of every operation is a next state, and there is no fault to answer. -/
theorem noOperationSticks : Obligations.NoOperationSticks :=
  ⟨fun i s => ⟨_, exec_eq_perform i s, perform_stimuli Config.machine i s⟩, fun _ f => nomatch f⟩

end Sys2Proof.Machine

/-! ## Reset and hazards (`70_reset_and_hazards.md` R350, R351, R366) -/

namespace Sys2Proof.Machine

/-! ### The operation `RST` -/

/-- `RST` as a whole (R350): one block for every state before. -/
theorem resetOp_eq (c : Config) (s : State) :
    resetOp c s =
      { block := Block.reset c
        gateTrace := if s.block.gate then s.gateTrace ++ [false] else s.gateTrace
        readTrace := s.readTrace
        stimuli := s.stimuli } :=
  State.ext (resetOp_block c s) (resetOp_gateTrace c s) (resetOp_readTrace c s) (resetOp_stimuli c s)

/-- The start of a run is a fixed point of `RST` (R351): its block is the reset block, whose gate is 0. -/
theorem resetOp_resetOf (c : Config) : resetOp c (State.resetOf c) = State.resetOf c := resetOp_eq c _

/-- Settles O11. -/
theorem resetOperation : Obligations.ResetOperation := by
  refine ⟨rfl, ?_, fun s => ?_⟩
  · rw [exec_eq_perform, perform_rst]
    exact congrArg _ (resetOp_resetOf Config.machine)
  · rw [exec_eq_perform, perform_rst, resetOp_eq]
    rfl

/-! ### A stop during forced conduction

While the gate conducts under an armed timer, the gate and the timer end together: the expiry clears both and no other
`DT` touches either. When the timer ends is `runOps_timerAfter`. -/

/-- `DT` keeps a gate that conducts exactly while the timer is armed (R153, R154). -/
theorem delayTick_gate_eq_dlyArmed {s : State} (h : s.block.gate = s.block.dlyArmed) :
    (delayTick s).block.gate = (delayTick s).block.dlyArmed := by
  obtain ⟨-, heq⟩ | ⟨-, -, heq⟩ | ⟨-, -, heq⟩ := delayTick_cases s <;> rw [heq]
  · exact h
  · exact h
  · rw [expiry_block]

/-- A gate that conducts under an armed timer conducts for as many ticks as the count of the timer, and the next one
releases it. -/
theorem runOps_dtN_gate (c : Config) {s : State} (hgate : s.block.gate = true) (harmed : s.block.dlyArmed = true)
    (n : Nat) : (runOps c (dtN n) s).block.gate = decide (n ≤ s.block.dlyCnt.toNat) := by
  have hdt : ∀ i ∈ dtN n, i = .dt := fun _ => List.eq_of_mem_replicate
  have htogether : (runOps c (dtN n) s).block.gate = (runOps c (dtN n) s).block.dlyArmed :=
    runOps_induction c s (P := fun t => t.block.gate = t.block.dlyArmed) (dtN n)
      (fun i hi t ht => by rw [hdt i hi]; exact delayTick_gate_eq_dlyArmed ht) (hgate.trans harmed.symm)
  have hstart : s.block.TimerAfter s.block.dlyCnt.toNat 0 := ⟨harmed.trans (decide_eq_true (Nat.zero_le _)).symm, rfl⟩
  obtain ⟨hend, -⟩ := runOps_timerAfter c (fun hzc => nomatch hdt _ hzc) (fun hrst => nomatch hdt _ hrst) hstart
  rw [htogether, hend, dtN, List.count_replicate_self, Nat.zero_add]

/-- Settles O24: `WR LEVEL` reaches neither the gate nor the timer, so the expiry comes when it would have come. It leaves
the gate at 0 with its pulse or without (R154), so the proof does not need the written byte to stop the fan. -/
theorem stopReleasesGateAtExpiry : Obligations.StopReleasesGateAtExpiry := by
  intro c s d _ hgate harmed
  obtain ⟨hgate', hcnt', harmed', -, -⟩ := applyLevel_firing c s.block d
  have hstays : (perform c (.wrLevel d) s).block.gate = true := hgate'.trans hgate
  refine ⟨hstays, fun n => ?_⟩
  have hrelease := runOps_dtN_gate c hstays (harmed'.trans harmed) n
  rwa [perform_wrLevel, State.mapBlock_block, hcnt'] at hrelease

end Sys2Proof.Machine
